-- ==== Sys2Proof/Word.lean ====
section
/-! DEFINITION. The words of the WR-4 (chapter 0.4): readings and web coordinates of 32 bits that
wrap, 16-bit tags and serials, bytes, and the signed difference by which two readings are compared. -/

namespace Sys2Proof

/-- A reading or a web coordinate: 32 bits, arithmetic modulo 2^32 (0.4.3). -/
abbrev Word := BitVec 32

/-- A tag or a serial (0..65,535). -/
abbrev Half := BitVec 16

/-- One byte of a frame, a reply or a LOOP_RX character. -/
abbrev Byte := BitVec 8

/-- `a − b` modulo 2^32, read as a signed 32-bit number (0.4.3). -/
def Word.diff (a b : Word) : Int := BitVec.toInt (a - b)

/-- `a` moved by a signed distance, modulo 2^32. -/
def Word.shift (a : Word) (d : Int) : Word := a + BitVec.ofInt 32 d

/-- `a` moved forward by a distance, modulo 2^32. -/
def Word.plus (a : Word) (n : Nat) : Word := a + BitVec.ofNat 32 n

end Sys2Proof
end

