-- ==== Sys2Proof/Syntax.lean ====
section
/-! DEFINITION. The commands of the WR-4: one constructor for each row of spec/opcode_table.json, with
the row's operands. A request carries the port it arrives on and its body bytes as they stand in the
frame; an event on a line carries the lane or knife and what is read there. -/

namespace Sys2Proof

/-- The three ports, numbered 0, 1, 2 in this order (R184). -/
inductive Port where
  | pp | fp | jp
deriving DecidableEq, Repr

/-- A lane, and with it its knife and its mark sensor (0.4.1). -/
inductive Lane where
  | l0 | l1 | l2 | l3
deriving DecidableEq, Repr

/-- The levels of an encoder's two channels (Table 1-1). -/
structure Phase where
  a : Bool
  b : Bool
deriving DecidableEq, Repr

/-- What the part reads at its pins at the release of a reset: the encoder channels (R1), the knife
home inputs, true for active (R111), and the chip selects, true for asserted (R180). -/
structure PinLevels where
  printChannels : Phase
  lineChannels  : Phase
  home0 : Bool
  home1 : Bool
  home2 : Bool
  home3 : Bool
  csP : Bool
  csF : Bool
  csJ : Bool
deriving DecidableEq, Repr

/-- The commands. Requests (Table 10-1) carry the port and the body bytes; their CRC is correct, since
a frame with a wrong CRC byte is the row FRAME_ERROR. -/
inductive Instr where
  /-- POWER_ON_RESET: the release of power-on reset with these pin levels. -/
  | powerOnReset (pins : PinLevels)
  /-- PIN_RESET: the release of RESET_N with these pin levels. -/
  | pinReset (pins : PinLevels)
  /-- CS_RELEASE: chip select of the port is released. -/
  | csRelease (p : Port)
  /-- FRAME_ERROR: a frame arrives whose CRC byte is not the frame's CRC. -/
  | frameError (p : Port) (kind : Byte) (body : List Byte) (crc : Byte)
  /-- UNKNOWN_REQUEST: a frame with a correct CRC arrives whose kind names no request. -/
  | unknownRequest (p : Port) (kind : Byte) (body : List Byte)
  | identify (p : Port) (body : List Byte)
  | statusRead (p : Port) (body : List Byte)
  | mapSeek (p : Port) (body : List Byte)
  | mapRead (p : Port) (body : List Byte)
  | paramRead (p : Port) (body : List Byte)
  | paramWrite (p : Port) (body : List Byte)
  | lock (p : Port) (body : List Byte)
  | unlock (p : Port) (body : List Byte)
  | lockBreak (p : Port) (body : List Byte)
  | maskSet (p : Port) (body : List Byte)
  | conditionTake (p : Port) (body : List Byte)
  | conditionPeek (p : Port) (body : List Byte)
  | printNotice (p : Port) (body : List Byte)
  | webSplice (p : Port) (body : List Byte)
  | filmSplice (p : Port) (body : List Byte)
  | lineArm (p : Port) (body : List Byte)
  | lineStart (p : Port) (body : List Byte)
  | lineStop (p : Port) (body : List Byte)
  | lineDrain (p : Port) (body : List Byte)
  | lineResume (p : Port) (body : List Byte)
  | lineClear (p : Port) (body : List Byte)
  | knifeEnable (p : Port) (body : List Byte)
  | knifeDisable (p : Port) (body : List Byte)
  | knifeReset (p : Port) (body : List Byte)
  | outfeedTake (p : Port) (body : List Byte)
  | laneReacquire (p : Port) (body : List Byte)
  | planAdd (p : Port) (body : List Byte)
  | planWithdraw (p : Port) (body : List Byte)
  | panelVoid (p : Port) (body : List Byte)
  | logRead (p : Port) (body : List Byte)
  | logClear (p : Port) (body : List Byte)
  | attributeRead (p : Port) (body : List Byte)
  | attributeReset (p : Port) (body : List Byte)
  | attributeLoad (p : Port) (body : List Byte)
  /-- PRINT_EDGE: the print encoder's channels are sampled at these levels. -/
  | printEdge (channels : Phase)
  /-- LINE_EDGE: the line encoder's channels are sampled at these levels. -/
  | lineEdge (channels : Phase)
  /-- TIMEBASE_TICK: an instant of the 1 ms timebase. -/
  | timebaseTick
  /-- LOOP_SAMPLE: a valid dancer sample. -/
  | loopSample (sample : BitVec 12)
  /-- LOOP_STALE: the staleness timer reaches 10 ms. -/
  | loopStale
  /-- MARK_EDGE: a rising edge on the lane's mark input. -/
  | markEdge (k : Lane)
  | windowExpiry (k : Lane)
  | settleEnd (k : Lane)
  | leadEvent (k : Lane)
  | tailEvent (k : Lane)
  | commit (k : Lane)
  | fireEvent (k : Lane)
  | deadline (k : Lane)
  /-- FIRE_PULSE_END: 2 ms after the stroke began. -/
  | firePulseEnd (k : Lane)
  /-- HOME_LEAVE: the knife's home input goes inactive. -/
  | homeLeave (k : Lane)
  /-- HOME_RETURN: the knife's home input goes active; `d` is the stroke timer's count then, in 10 µs. -/
  | homeReturn (k : Lane) (d : Nat)
  /-- STROKE_TIMEOUT: the stroke timer reaches the timeout held in the stroke record. -/
  | strokeTimeout (k : Lane)
  /-- INDEX_PULSE: a rising edge on UNWIND_IDX. -/
  | indexPulse
  | filmBreak
  | splicePassage
  | retirement
  /-- LOOP_RX_CHARACTER: a character on LOOP_RX; `framed` is false when its stop bit is sampled low. -/
  | loopRxCharacter (char : Byte) (framed : Bool)
  /-- CS_ASSERTION: chip select of the port is asserted. -/
  | csAssertion (p : Port)
  /-- REPLY_COMPLETE: the master has clocked out the reply CRC. -/
  | replyComplete (p : Port)
deriving DecidableEq, Repr

end Sys2Proof
end

