-- ==== Sys2Proof/Machine/Bytes.lean ====
section
/-! DEFINITION. Bytes of frames and replies: fields most significant byte first (Table 10-1) and the
CRC-8 of R181. -/

namespace Sys2Proof.Machine

/-- A field of bytes, most significant first, as a number. -/
def beNat (bs : List Byte) : Nat := bs.foldl (fun n b => n * 256 + b.toNat) 0

/-- The low byte of a number. -/
def byteOf (n : Nat) : Byte := BitVec.ofNat 8 n

/-- A number as one, two, three or four bytes, most significant first. -/
def be1 (n : Nat) : List Byte := [byteOf n]
def be2 (n : Nat) : List Byte := [byteOf (n / 256), byteOf n]
def be3 (n : Nat) : List Byte := [byteOf (n / 65536), byteOf (n / 256), byteOf n]
def be4 (n : Nat) : List Byte :=
  [byteOf (n / 16777216), byteOf (n / 65536), byteOf (n / 256), byteOf n]

/-- A flag as a byte: 1 when set, 0 otherwise (note to Table 10-10). -/
def flagByte (b : Bool) : List Byte := [if b then 1 else 0]

/-- A reading, two's complement, as four bytes. -/
def wordBytes (w : Word) : List Byte := be4 w.toNat

/-- A signed number as four bytes of two's complement. -/
def intBytes4 (i : Int) : List Byte := be4 (BitVec.ofInt 32 i).toNat

/-- A signed number as two bytes of two's complement. -/
def intBytes2 (i : Int) : List Byte := be2 (BitVec.ofInt 16 i).toNat

/-- One bit of the CRC: shift left, folding the polynomial 07h when a one is shifted out (R181). -/
def crcBit (c : Byte) : Byte := if c.msb then (c <<< 1) ^^^ 0x07#8 else c <<< 1

/-- One byte folded into the CRC, eight bits, not reflected (R181). -/
def crcByte (c b : Byte) : Byte :=
  crcBit (crcBit (crcBit (crcBit (crcBit (crcBit (crcBit (crcBit (c ^^^ b))))))))

/-- The CRC-8 of R181: initial value 00h and no final inversion. -/
def crc8 (bs : List Byte) : Byte := bs.foldl crcByte 0

/-- The CRC byte of a frame: over the kind, the length and the body (R181). -/
def frameCrc (kind : Byte) (body : List Byte) : Byte := crc8 (kind :: byteOf body.length :: body)

end Sys2Proof.Machine
end

