-- ==== Sys2Proof/Config.lean ====
section
/-! DEFINITION. What the part fixes (Table 0-3 and the figures of R12, R84, R95 and R184), and the one
value the manual leaves open: what a product that does not fit its 48 bits is held as. -/

namespace Sys2Proof

/-- Panel records of the panel pool (R37). -/
abbrev Config.panelRecords : Nat := 96
/-- Plan records of the plan pool (R18). -/
abbrev Config.planRecords : Nat := 64
/-- Entries of the outfeed list (R53). -/
abbrev Config.outfeedEntries : Nat := 24
/-- Entries of the fire list (R90). -/
abbrev Config.fireEntries : Nat := 16
/-- Fire list entries one lane may hold (R91). -/
abbrev Config.laneEntries : Nat := 3
/-- Records of the condition queue (R170). -/
abbrev Config.conditionRecords : Nat := 32
/-- Records of the splice list (R139). -/
abbrev Config.spliceRecords : Nat := 4
/-- Entries of the error log (R176). -/
abbrev Config.logEntries : Nat := 5
/-- Entries of the request history (R177). -/
abbrev Config.historyEntries : Nat := 6
/-- Secondary causes one LINE DAMAGE record holds (R156). -/
abbrev Config.secondaryCauses : Nat := 3
/-- The arming horizon, in counts (R95). -/
abbrev Config.armingHorizon : Int := 4000
/-- The commit distance, in counts (R95, R98). -/
abbrev Config.commitDistance : Nat := 300
/-- The greatest lead, in counts (R92). -/
abbrev Config.leadLimit : Nat := 2000
/-- The staleness limit of the loop, in ms (R12). -/
abbrev Config.staleMs : Nat := 10
/-- The width of the KNIFE_FIRE pulse, in ms (R112). -/
abbrev Config.firePulseMs : Nat := 2
/-- The back-off that reverse travel never reaches (R6). -/
abbrev Config.backOffLimit : Int := 16777216
/-- Saturation of the revolution count, the index distance and the stroke count (R121, R130). -/
abbrev Config.max24 : Nat := 16777215
/-- The least legal scale (0.4.5). -/
abbrev Config.scaleMin : Nat := 980000
/-- The greatest legal scale (0.4.5). -/
abbrev Config.scaleMax : Nat := 1030000
/-- Counts per unit of scale (0.4.5). -/
abbrev Config.million : Nat := 1000000
/-- How many due events one LINE_EDGE or TIMEBASE_TICK takes at most before it acts: above every
number of events that can be due together, so it bounds a recursion and nothing else. -/
abbrev Config.dueBound : Nat := 2048

/-- What a product of 2^48 or more is held as (0.4.6 holds intermediate products to 48 bits and R64
names a product below 2^48 only). FREE VALUE, assumption 2: nothing constrains it. -/
opaque Config.wideProduct : Nat → Nat

end Sys2Proof
end

