-- ==== Sys2Proof/Machine/Arith.lean ====
section
/-! DEFINITION. The figures of the manual: prediction (R64), measured scale and its step (R76, R77),
lead (R92), loop length (R11), brake duty (R132), wear attributes (R121, R122), speed figure (R9). -/

namespace Sys2Proof.Machine

/-- A product held to 48 bits (0.4.6): itself below 2^48, else the free value of assumption 2. -/
def heldProduct (n : Nat) : Nat := if n < 281474976710656 then n else Config.wideProduct n

/-- A clamp to `lo..hi`. -/
def clampInt (lo hi x : Int) : Int := max lo (min hi x)

/-- The term of a prediction: `d × scale / 1,000,000`, the magnitude rounded half up and given the sign
of `d` (0.4.6, R64). -/
def scaleTerm (d : Int) (scale : Nat) : Int :=
  let m : Nat := (heldProduct (d.natAbs * scale) + 500000) / 1000000
  if d < 0 then -(m : Int) else (m : Int)

/-- The predicted nip reading of a point at web coordinate `w` (R64). -/
def predict (wref lref : Word) (scale : Nat) (w : Word) : Word :=
  lref.shift (scaleTerm (w.diff wref) scale)

/-- The measured scale before its clamp: `travel × 1,000,000 / span` rounded half up, 0 for a travel
that is not positive (R76). -/
def measuredScale (travel : Int) (span : Nat) : Nat :=
  if travel ≤ 0 then 0 else (2 * heldProduct (travel.toNat * 1000000) + span) / (2 * span)

/-- A scale clamped to its legal range (0.4.5). -/
def clampScale (n : Nat) : Nat := max Config.scaleMin (min Config.scaleMax n)

/-- The new scale: a step of `delta × gain / 16`, truncated toward zero, and the clamp (R77). -/
def steppedScale (scale sMeas gain : Nat) : Nat :=
  clampScale ((scale : Int) + (((sMeas : Int) - scale) * gain).tdiv 16).toNat

/-- The lead of an action (R92). -/
def leadOf (speed8 : Int) (tAct : Nat) : Nat :=
  if speed8 ≤ 0 then 0 else min Config.leadLimit ((speed8.toNat * tAct + 4000) / 8000)

/-- The loop length in print counts (R11). -/
def loopLength (a b sample : Nat) : Nat := a + (b * sample + 2048) / 4096

/-- The computed brake duty (R132): first lowered to max duty, then raised to min duty. -/
def dutyOf (base c cFull minDuty maxDuty : Nat) : Nat :=
  max minDuty (min maxDuty ((base * c + cFull / 2) / cFull))

/-- N of STROKE LIFE (R121). -/
def lifeN (rated strokes : Nat) : Nat := 1 + 252 * (rated - strokes) / rated

/-- The mean stroke duration moved by an eighth of the difference, truncated toward zero (R122). -/
def movedMean (m d : Nat) : Nat := ((m : Int) + ((d : Int) - m).tdiv 8).toNat

/-- N of STROKE TIME (R122). -/
def timeN (nominal m : Nat) : Nat :=
  max 1 (253 - ((m - nominal) * 252 + nominal / 2) / nominal)

/-- The speed figure from the oldest and the newest entry of the line history (R9). -/
def speedFigure (oldest newest : Word) : Int := clampInt (-32767) 32767 (newest.diff oldest)

/-- A count raised by one, saturating. -/
def satSucc (limit n : Nat) : Nat := min limit (n + 1)

end Sys2Proof.Machine
end

