-- ==== Sys2Proof/Machine/Params.lean ====
section
/-! DEFINITION. The parameter store (R186, Table 10-4): the five groups with their defaults, how a
parameter is named by group, item and index, its value, its range, and the configuration checks of
Table 8-2. Values that pass their range are never negative, so the store holds them as numbers. -/

namespace Sys2Proof.Machine

/-- One value for each lane or knife. -/
structure PerLane (α : Type) where
  l0 : α
  l1 : α
  l2 : α
  l3 : α
deriving DecidableEq, Repr

def PerLane.get {α : Type} (t : PerLane α) : Lane → α
  | .l0 => t.l0 | .l1 => t.l1 | .l2 => t.l2 | .l3 => t.l3

def PerLane.set {α : Type} (t : PerLane α) (k : Lane) (a : α) : PerLane α :=
  match k with
  | .l0 => { t with l0 := a } | .l1 => { t with l1 := a }
  | .l2 => { t with l2 := a } | .l3 => { t with l3 := a }

def PerLane.map {α β : Type} (f : α → β) (t : PerLane α) : PerLane β :=
  { l0 := f t.l0, l1 := f t.l1, l2 := f t.l2, l3 := f t.l3 }

def PerLane.all {α : Type} (a : α) : PerLane α := { l0 := a, l1 := a, l2 := a, l3 := a }

/-- The four lanes in order. -/
def lanes : List Lane := [.l0, .l1, .l2, .l3]

/-- The number of a lane. -/
def laneNumber : Lane → Nat
  | .l0 => 0 | .l1 => 1 | .l2 => 2 | .l3 => 3

/-- The lane that a number names; a number above 3 names none. -/
def laneOf : Nat → Option Lane
  | 0 => some .l0 | 1 => some .l1 | 2 => some .l2 | 3 => some .l3 | _ => none

/-- The parameter groups (Table 10-4). -/
inductive Group where
  | g0 | g1 | g2 | g3 | g4
deriving DecidableEq, Repr

def groupNumber : Group → Nat
  | .g0 => 0 | .g1 => 1 | .g2 => 2 | .g3 => 3 | .g4 => 4

def groupOf : Nat → Option Group
  | 0 => some .g0 | 1 => some .g1 | 2 => some .g2 | 3 => some .g3 | 4 => some .g4 | _ => none

/-- G0 GEOMETRY. -/
structure G0 where
  sensorDistance   : PerLane Nat
  knifeDistance    : PerLane Nat
  spliceHalfLength : Nat
  reverseLimit     : Nat
  /-- The lane-present flags, one per lane. -/
  lanePresent      : PerLane Bool
deriving DecidableEq, Repr

/-- G1 REGISTRATION. -/
structure G1 where
  acquireWindow : Nat
  trackWindow   : Nat
  coastLimit    : Nat
  coastDistance : Nat
  gain          : Nat
  minimumSpan   : Nat
  nominalScale  : Nat
  settleDistance : Nat
  degradationThreshold : Nat
deriving DecidableEq, Repr

/-- G2 TENSION; the output format is true for INVERTED. -/
structure G2 where
  normalBase : Nat
  spliceBase : Nat
  minDuty    : Nat
  maxDuty    : Nat
  cFull      : Nat
  cCore      : Nat
  filmLowC   : Nat
  inverted   : Bool
  indexTimeout : Nat
deriving DecidableEq, Repr

/-- G3 LOOP. -/
structure G3 where
  loopOffset  : Nat
  loopGain    : Nat
  lowStop     : Nat
  lowWarning  : Nat
  highLimit   : Nat
  hysteresis  : Nat
  poolReserve : Nat
deriving DecidableEq, Repr

/-- G4 KNIFE; a flag is true for pre-failure. -/
structure G4 where
  actuationTime  : PerLane Nat
  strokeTimeout  : Nat
  cutTolerance   : Nat
  deviationLimit : Nat
  minimumCutSpacing : Nat
  ratedLife      : Nat
  nominalStrokeTime : Nat
  lifeThreshold  : PerLane Nat
  timeThreshold  : PerLane Nat
  lifePreFailure : PerLane Bool
  timePreFailure : PerLane Bool
deriving DecidableEq, Repr

/-- The parameter store. -/
structure Params where
  g0 : G0
  g1 : G1
  g2 : G2
  g3 : G3
  g4 : G4
deriving DecidableEq, Repr

/-- The defaults of group G1, which each lane's copy also takes at reset (R63). -/
def G1.defaults : G1 :=
  { acquireWindow := 400, trackWindow := 30, coastLimit := 3, coastDistance := 60000, gain := 4,
    minimumSpan := 2000, nominalScale := 1000000, settleDistance := 20000,
    degradationThreshold := 8 }

/-- Every parameter at its default (R186, Table 10-4). -/
def Params.defaults : Params :=
  { g0 := { sensorDistance := .all 4000, knifeDistance := .all 6000, spliceHalfLength := 500,
            reverseLimit := 2000, lanePresent := .all true },
    g1 := G1.defaults,
    g2 := { normalBase := 1600, spliceBase := 1200, minDuty := 200, maxDuty := 3600,
            cFull := 18850, cCore := 2400, filmLowC := 3000, inverted := false,
            indexTimeout := 40000 },
    g3 := { loopOffset := 1000, loopGain := 40000, lowStop := 2000, lowWarning := 5000,
            highLimit := 38000, hysteresis := 2000, poolReserve := 4 },
    g4 := { actuationTime := .all 12000, strokeTimeout := 250, cutTolerance := 20,
            deviationLimit := 50, minimumCutSpacing := 2000, ratedLife := 500000,
            nominalStrokeTime := 800, lifeThreshold := .all 10, timeThreshold := .all 10,
            lifePreFailure := .all true, timePreFailure := .all false } }

/-- A parameter, named as Table 10-4 names it. -/
inductive Param where
  | sensorDistance (k : Lane) | knifeDistance (k : Lane) | spliceHalfLength | reverseLimit
  | lanePresent
  | acquireWindow | trackWindow | coastLimit | coastDistance | gain | minimumSpan
  | nominalScale | settleDistance | degradationThreshold
  | normalBase | spliceBase | minDuty | maxDuty | cFull | cCore | filmLowC | outputFormat
  | indexTimeout
  | loopOffset | loopGain | lowStop | lowWarning | highLimit | hysteresis | poolReserve
  | actuationTime (k : Lane) | strokeTimeout | cutTolerance | deviationLimit
  | minimumCutSpacing | ratedLife | nominalStrokeTime
  | lifeThreshold (k : Lane) | timeThreshold (k : Lane)
  | lifeFlag (k : Lane) | timeFlag (k : Lane)
deriving DecidableEq, Repr

/-- The items of a group that have one value, in item order, and the items that have one per lane
or knife (Table 10-4); an item is named by its place in the list. -/
def groupItems : Group → List (Param ⊕ (Lane → Param))
  | .g0 => [.inr .sensorDistance, .inr .knifeDistance, .inl .spliceHalfLength, .inl .reverseLimit,
            .inl .lanePresent]
  | .g1 => [.inl .acquireWindow, .inl .trackWindow, .inl .coastLimit, .inl .coastDistance,
            .inl .gain, .inl .minimumSpan, .inl .nominalScale, .inl .settleDistance,
            .inl .degradationThreshold]
  | .g2 => [.inl .normalBase, .inl .spliceBase, .inl .minDuty, .inl .maxDuty, .inl .cFull,
            .inl .cCore, .inl .filmLowC, .inl .outputFormat, .inl .indexTimeout]
  | .g3 => [.inl .loopOffset, .inl .loopGain, .inl .lowStop, .inl .lowWarning, .inl .highLimit,
            .inl .hysteresis, .inl .poolReserve]
  | .g4 => [.inr .actuationTime, .inl .strokeTimeout, .inl .cutTolerance, .inl .deviationLimit,
            .inl .minimumCutSpacing, .inl .ratedLife, .inl .nominalStrokeTime,
            .inr .lifeThreshold, .inr .timeThreshold, .inr .lifeFlag, .inr .timeFlag]

/-- The parameter that a group, an item and an index name: none for a group above 4, an item the
group does not have, an index above 3 for a per-lane item, or an index other than 0 for any other
item (R187). -/
def paramOf (group item index : Nat) : Option Param :=
  match groupOf group with
  | none => none
  | some g =>
    match (groupItems g)[item]? with
    | none => none
    | some (.inl q) => if index = 0 then some q else none
    | some (.inr f) => (laneOf index).map f

/-- The group of a parameter. -/
def Param.group : Param → Group
  | .sensorDistance _ | .knifeDistance _ | .spliceHalfLength | .reverseLimit | .lanePresent => .g0
  | .acquireWindow | .trackWindow | .coastLimit | .coastDistance | .gain | .minimumSpan
  | .nominalScale | .settleDistance | .degradationThreshold => .g1
  | .normalBase | .spliceBase | .minDuty | .maxDuty | .cFull | .cCore | .filmLowC
  | .outputFormat | .indexTimeout => .g2
  | .loopOffset | .loopGain | .lowStop | .lowWarning | .highLimit | .hysteresis
  | .poolReserve => .g3
  | .actuationTime _ | .strokeTimeout | .cutTolerance | .deviationLimit | .minimumCutSpacing
  | .ratedLife | .nominalStrokeTime | .lifeThreshold _ | .timeThreshold _ | .lifeFlag _
  | .timeFlag _ => .g4

/-- A flag as a stored number. -/
def flagNat (b : Bool) : Nat := if b then 1 else 0

/-- The lane-present flags as the stored number, bit k for lane k. -/
def presentMask (t : PerLane Bool) : Nat :=
  flagNat t.l0 + 2 * flagNat t.l1 + 4 * flagNat t.l2 + 8 * flagNat t.l3

/-- The lane-present flags that a stored number holds. -/
def presentOf (n : Nat) : PerLane Bool :=
  { l0 := n.testBit 0, l1 := n.testBit 1, l2 := n.testBit 2, l3 := n.testBit 3 }

/-- The value a parameter holds. -/
def Params.value (ps : Params) : Param → Nat
  | .sensorDistance k => ps.g0.sensorDistance.get k
  | .knifeDistance k => ps.g0.knifeDistance.get k
  | .spliceHalfLength => ps.g0.spliceHalfLength
  | .reverseLimit => ps.g0.reverseLimit
  | .lanePresent => presentMask ps.g0.lanePresent
  | .acquireWindow => ps.g1.acquireWindow
  | .trackWindow => ps.g1.trackWindow
  | .coastLimit => ps.g1.coastLimit
  | .coastDistance => ps.g1.coastDistance
  | .gain => ps.g1.gain
  | .minimumSpan => ps.g1.minimumSpan
  | .nominalScale => ps.g1.nominalScale
  | .settleDistance => ps.g1.settleDistance
  | .degradationThreshold => ps.g1.degradationThreshold
  | .normalBase => ps.g2.normalBase
  | .spliceBase => ps.g2.spliceBase
  | .minDuty => ps.g2.minDuty
  | .maxDuty => ps.g2.maxDuty
  | .cFull => ps.g2.cFull
  | .cCore => ps.g2.cCore
  | .filmLowC => ps.g2.filmLowC
  | .outputFormat => flagNat ps.g2.inverted
  | .indexTimeout => ps.g2.indexTimeout
  | .loopOffset => ps.g3.loopOffset
  | .loopGain => ps.g3.loopGain
  | .lowStop => ps.g3.lowStop
  | .lowWarning => ps.g3.lowWarning
  | .highLimit => ps.g3.highLimit
  | .hysteresis => ps.g3.hysteresis
  | .poolReserve => ps.g3.poolReserve
  | .actuationTime k => ps.g4.actuationTime.get k
  | .strokeTimeout => ps.g4.strokeTimeout
  | .cutTolerance => ps.g4.cutTolerance
  | .deviationLimit => ps.g4.deviationLimit
  | .minimumCutSpacing => ps.g4.minimumCutSpacing
  | .ratedLife => ps.g4.ratedLife
  | .nominalStrokeTime => ps.g4.nominalStrokeTime
  | .lifeThreshold k => ps.g4.lifeThreshold.get k
  | .timeThreshold k => ps.g4.timeThreshold.get k
  | .lifeFlag k => flagNat (ps.g4.lifePreFailure.get k)
  | .timeFlag k => flagNat (ps.g4.timePreFailure.get k)

/-- The store with a parameter at a new value (R188). -/
def Params.write (ps : Params) (q : Param) (v : Nat) : Params :=
  match q with
  | .sensorDistance k =>
    { ps with g0 := { ps.g0 with sensorDistance := ps.g0.sensorDistance.set k v } }
  | .knifeDistance k =>
    { ps with g0 := { ps.g0 with knifeDistance := ps.g0.knifeDistance.set k v } }
  | .spliceHalfLength => { ps with g0 := { ps.g0 with spliceHalfLength := v } }
  | .reverseLimit => { ps with g0 := { ps.g0 with reverseLimit := v } }
  | .lanePresent => { ps with g0 := { ps.g0 with lanePresent := presentOf v } }
  | .acquireWindow => { ps with g1 := { ps.g1 with acquireWindow := v } }
  | .trackWindow => { ps with g1 := { ps.g1 with trackWindow := v } }
  | .coastLimit => { ps with g1 := { ps.g1 with coastLimit := v } }
  | .coastDistance => { ps with g1 := { ps.g1 with coastDistance := v } }
  | .gain => { ps with g1 := { ps.g1 with gain := v } }
  | .minimumSpan => { ps with g1 := { ps.g1 with minimumSpan := v } }
  | .nominalScale => { ps with g1 := { ps.g1 with nominalScale := v } }
  | .settleDistance => { ps with g1 := { ps.g1 with settleDistance := v } }
  | .degradationThreshold => { ps with g1 := { ps.g1 with degradationThreshold := v } }
  | .normalBase => { ps with g2 := { ps.g2 with normalBase := v } }
  | .spliceBase => { ps with g2 := { ps.g2 with spliceBase := v } }
  | .minDuty => { ps with g2 := { ps.g2 with minDuty := v } }
  | .maxDuty => { ps with g2 := { ps.g2 with maxDuty := v } }
  | .cFull => { ps with g2 := { ps.g2 with cFull := v } }
  | .cCore => { ps with g2 := { ps.g2 with cCore := v } }
  | .filmLowC => { ps with g2 := { ps.g2 with filmLowC := v } }
  | .outputFormat => { ps with g2 := { ps.g2 with inverted := v == 1 } }
  | .indexTimeout => { ps with g2 := { ps.g2 with indexTimeout := v } }
  | .loopOffset => { ps with g3 := { ps.g3 with loopOffset := v } }
  | .loopGain => { ps with g3 := { ps.g3 with loopGain := v } }
  | .lowStop => { ps with g3 := { ps.g3 with lowStop := v } }
  | .lowWarning => { ps with g3 := { ps.g3 with lowWarning := v } }
  | .highLimit => { ps with g3 := { ps.g3 with highLimit := v } }
  | .hysteresis => { ps with g3 := { ps.g3 with hysteresis := v } }
  | .poolReserve => { ps with g3 := { ps.g3 with poolReserve := v } }
  | .actuationTime k =>
    { ps with g4 := { ps.g4 with actuationTime := ps.g4.actuationTime.set k v } }
  | .strokeTimeout => { ps with g4 := { ps.g4 with strokeTimeout := v } }
  | .cutTolerance => { ps with g4 := { ps.g4 with cutTolerance := v } }
  | .deviationLimit => { ps with g4 := { ps.g4 with deviationLimit := v } }
  | .minimumCutSpacing => { ps with g4 := { ps.g4 with minimumCutSpacing := v } }
  | .ratedLife => { ps with g4 := { ps.g4 with ratedLife := v } }
  | .nominalStrokeTime => { ps with g4 := { ps.g4 with nominalStrokeTime := v } }
  | .lifeThreshold k =>
    { ps with g4 := { ps.g4 with lifeThreshold := ps.g4.lifeThreshold.set k v } }
  | .timeThreshold k =>
    { ps with g4 := { ps.g4 with timeThreshold := ps.g4.timeThreshold.set k v } }
  | .lifeFlag k =>
    { ps with g4 := { ps.g4 with lifePreFailure := ps.g4.lifePreFailure.set k (v == 1) } }
  | .timeFlag k =>
    { ps with g4 := { ps.g4 with timePreFailure := ps.g4.timePreFailure.set k (v == 1) } }

/-- The ends of a parameter's range (Table 10-4); the deviation limit's lower end is the cut
tolerance as the store holds it (R186). -/
def Params.range (ps : Params) : Param → Nat × Nat
  | .sensorDistance _ => (500, 60000)
  | .knifeDistance _ => (1500, 80000)
  | .spliceHalfLength => (100, 5000)
  | .reverseLimit => (500, 20000)
  | .lanePresent => (0, 15)
  | .acquireWindow => (50, 2000)
  | .trackWindow => (5, 500)
  | .coastLimit => (1, 7)
  | .coastDistance => (10000, 500000)
  | .gain => (1, 16)
  | .minimumSpan => (500, 20000)
  | .nominalScale => (980000, 1030000)
  | .settleDistance => (0, 100000)
  | .degradationThreshold => (1, 255)
  | .normalBase | .spliceBase | .minDuty | .maxDuty => (0, 4095)
  | .cFull => (1000, 60000)
  | .cCore | .filmLowC => (0, 60000)
  | .outputFormat => (0, 1)
  | .indexTimeout => (1000, 1000000)
  | .loopOffset => (0, 60000)
  | .loopGain => (0, 400000)
  | .lowStop | .lowWarning | .highLimit | .hysteresis => (0, 100000)
  | .poolReserve => (1, 16)
  | .actuationTime _ => (0, 20000)
  | .strokeTimeout => (20, 1000)
  | .cutTolerance => (5, 200)
  | .deviationLimit => (ps.g4.cutTolerance, 500)
  | .minimumCutSpacing => (1500, 50000)
  | .ratedLife => (1, 16777215)
  | .nominalStrokeTime => (1, 100000)
  | .lifeThreshold _ | .timeThreshold _ => (0, 255)
  | .lifeFlag _ | .timeFlag _ => (0, 1)

/-- Whether a value lies in a parameter's range; a threshold of 254 does not (R120, R188). -/
def Params.inRange (ps : Params) (q : Param) (v : Int) : Bool :=
  decide ((ps.range q).1 ≤ v) && decide (v ≤ (ps.range q).2) &&
    match q with
    | .lifeThreshold _ | .timeThreshold _ => decide (v ≠ 254)
    | _ => true

/-- Whether lane `k` is present in group G0. -/
def Params.isPresent (ps : Params) (k : Lane) : Bool := ps.g0.lanePresent.get k

/-- A failing check of Table 8-2, with what a CONFIG INVALID reply names (R150). -/
inductive ConfigFailure where
  | geometry (k : Lane)
  | value (group item index : Nat)
deriving DecidableEq, Repr

/-- The names (group, item, index) of every value of the groups, by group, item and index. -/
def paramNames : List (Nat × Nat × Nat) :=
  [Group.g0, .g1, .g2, .g3, .g4].flatMap fun g =>
    ((groupItems g).zipIdx).flatMap fun (q, i) =>
      match q with
      | .inl _ => [(groupNumber g, i, 0)]
      | .inr _ => [0, 1, 2, 3].map fun n => (groupNumber g, i, n)

/-- The first failing check in the order of Table 8-2, if any (R149, R150). DESIGN CHOICE (assumption 38): of
several present lanes that fail check 1 the lowest-numbered, and of several values that fail check 2 the first
of `paramNames`; the manual orders neither. -/
def Params.firstFailure (ps : Params) : Option ConfigFailure :=
  match lanes.find? (fun k => ps.isPresent k &&
      decide (ps.g0.knifeDistance.get k < ps.g0.sensorDistance.get k + 1000)) with
  | some k => some (.geometry k)
  | none =>
    (paramNames.find? (fun (g, i, n) =>
        match paramOf g i n with
        | some q => !ps.inRange q (ps.value q)
        | none => false)).map fun (g, i, n) => .value g i n

end Sys2Proof.Machine
end

