-- ==== Sys2Proof/Machine/Requests.lean ====
section
/-! DEFINITION. The requests of Table 10-1: their kinds, the ports that may send them (R182), and which
of them join the request history (R177). -/

namespace Sys2Proof.Machine

/-- The requests, in the order of Table 10-1. -/
inductive Request where
  | identify | statusRead | mapSeek | mapRead | paramRead | paramWrite | lock | unlock
  | maskSet | conditionTake | conditionPeek | printNotice | webSplice
  | lineArm | lineStart | lineStop | lineResume | lineClear | filmSplice
  | knifeEnable | knifeDisable | knifeReset | outfeedTake | lineDrain | laneReacquire
  | planAdd | planWithdraw | panelVoid | logRead | logClear
  | attributeRead | attributeReset | attributeLoad | lockBreak
deriving DecidableEq, Repr

/-- The kind byte of a request (Table 10-1). -/
def Request.kind : Request → Byte
  | .identify => 0x01 | .statusRead => 0x02 | .mapSeek => 0x03 | .mapRead => 0x04
  | .paramRead => 0x05 | .paramWrite => 0x06 | .lock => 0x07 | .unlock => 0x08
  | .maskSet => 0x09 | .conditionTake => 0x0A | .conditionPeek => 0x0B
  | .printNotice => 0x10 | .webSplice => 0x11
  | .lineArm => 0x20 | .lineStart => 0x21 | .lineStop => 0x22 | .lineResume => 0x23
  | .lineClear => 0x24 | .filmSplice => 0x25 | .knifeEnable => 0x26 | .knifeDisable => 0x27
  | .knifeReset => 0x28 | .outfeedTake => 0x29
  | .lineDrain => 0x30 | .laneReacquire => 0x31
  | .planAdd => 0x40 | .planWithdraw => 0x41 | .panelVoid => 0x42 | .logRead => 0x43
  | .logClear => 0x44 | .attributeRead => 0x45 | .attributeReset => 0x46
  | .attributeLoad => 0x47 | .lockBreak => 0x48

/-- Every request, in the order of Table 10-1. -/
def Request.all : List Request :=
  [.identify, .statusRead, .mapSeek, .mapRead, .paramRead, .paramWrite, .lock, .unlock,
   .maskSet, .conditionTake, .conditionPeek, .printNotice, .webSplice,
   .lineArm, .lineStart, .lineStop, .lineResume, .lineClear, .filmSplice,
   .knifeEnable, .knifeDisable, .knifeReset, .outfeedTake, .lineDrain, .laneReacquire,
   .planAdd, .planWithdraw, .panelVoid, .logRead, .logClear,
   .attributeRead, .attributeReset, .attributeLoad, .lockBreak]

/-- The request that a kind byte names, if any (step 2 of R182). -/
def Request.ofKind (kind : Byte) : Option Request := Request.all.find? (fun r => r.kind == kind)

/-- Whether the port may make the request (Table 10-1, step 3 of R182). -/
def Request.allowed : Request → Port → Bool
  | .printNotice, p | .webSplice, p => p == .pp
  | .lineArm, p | .lineStart, p | .lineStop, p | .lineResume, p | .lineClear, p
  | .filmSplice, p | .knifeEnable, p | .knifeDisable, p | .knifeReset, p
  | .outfeedTake, p => p == .fp
  | .lineDrain, p | .laneReacquire, p => p == .fp || p == .jp
  | .planAdd, p | .planWithdraw, p | .panelVoid, p | .logRead, p | .logClear, p
  | .attributeRead, p | .attributeReset, p | .attributeLoad, p | .lockBreak, p => p == .jp
  | .identify, _ | .statusRead, _ | .mapSeek, _ | .mapRead, _ | .paramRead, _
  | .paramWrite, _ | .lock, _ | .unlock, _ | .maskSet, _ | .conditionTake, _
  | .conditionPeek, _ => true

/-- Whether an accepted request joins the request history (R177). -/
def Request.joinsHistory : Request → Bool
  | .identify | .statusRead | .mapSeek | .mapRead | .paramRead | .conditionTake
  | .conditionPeek | .logRead | .attributeRead => false
  | _ => true

/-- The line requests of R148. -/
def Request.isLine : Request → Bool
  | .lineArm | .lineStart | .lineStop | .lineResume | .lineClear | .lineDrain => true
  | _ => false

/-- The number of a port (R184). -/
def portNumber : Port → Nat
  | .pp => 0 | .fp => 1 | .jp => 2

/-- The reply codes of Table 10-2. -/
inductive ReplyCode where
  | accepted | frameError | unknownRequest | notPermitted | badArgument | locked | wrongState
  | configInvalid | poolFull | listFull | unplanned | duplicateTag | overlap | futurePosition
  | knifeWorn | inMap | unknownTag | tooLate | empty | notAtHome
deriving DecidableEq, Repr

/-- The code byte of a reply (Table 10-2). -/
def ReplyCode.code : ReplyCode → Byte
  | .accepted => 0x00 | .frameError => 0x01 | .unknownRequest => 0x02 | .notPermitted => 0x03
  | .badArgument => 0x04 | .locked => 0x05 | .wrongState => 0x06 | .configInvalid => 0x07
  | .poolFull => 0x08 | .listFull => 0x09 | .unplanned => 0x0A | .duplicateTag => 0x0B
  | .overlap => 0x0C | .futurePosition => 0x0D | .knifeWorn => 0x0E | .inMap => 0x0F
  | .unknownTag => 0x10 | .tooLate => 0x11 | .empty => 0x12 | .notAtHome => 0x13

/-- A reply: its code and its body (R182). -/
structure Reply where
  code : ReplyCode
  body : List Byte
deriving DecidableEq, Repr

end Sys2Proof.Machine
end

