-- ==== Sys2Proof/Machine/Types.lean ====
section
/-! DEFINITION. The records and tables that the blocks of the WR-4 hold, as the manual's tables give
their fields, and the codes of Table 10-5. -/

namespace Sys2Proof.Machine

/-- One value for each port. -/
structure PerPort (α : Type) where
  pp : α
  fp : α
  jp : α
deriving DecidableEq, Repr

def PerPort.get {α : Type} (t : PerPort α) : Port → α
  | .pp => t.pp | .fp => t.fp | .jp => t.jp

def PerPort.set {α : Type} (t : PerPort α) (p : Port) (a : α) : PerPort α :=
  match p with
  | .pp => { t with pp := a } | .fp => { t with fp := a } | .jp => { t with jp := a }

def PerPort.all {α : Type} (a : α) : PerPort α := { pp := a, fp := a, jp := a }

/-- The line direction (R4). -/
inductive Direction where
  | forward | reverse
deriving DecidableEq, Repr

/-- The motion unit (Table 1-6). -/
structure Mot where
  printPhase  : Phase
  linePhase   : Phase
  p           : Word
  l           : Word
  highWater   : Word
  direction   : Direction
  printErrors : Nat
  lineErrors  : Nat
  history     : List Word
  speed8      : Int
deriving DecidableEq, Repr

/-- The loop monitor (Table 1-6); `rxOpen` is the first character of an open sample (R10). -/
structure Lpm where
  rxOpen        : Option Byte
  lp            : Nat
  sampleAbsent  : Bool
  stale         : Bool
  sinceSampleMs : Nat
  lowStop       : Bool
  lowWarning    : Bool
  loopReason    : Bool
  highWarning   : Bool
  poolReason    : Bool
deriving DecidableEq, Repr

/-- The depth of a knife action. -/
inductive ActionKind where
  | cut | perf
deriving DecidableEq, Repr

/-- A plan record (Table 2-1); its lane is the queue it stands in. -/
structure Plan where
  tag       : Half
  length    : Nat
  marks     : List Nat
  actions   : List (Nat × ActionKind)
  reprintOf : Option Half
deriving DecidableEq, Repr

/-- The plan store: the plan queues, oldest plan first, and the serial counter (R18, R31). -/
structure Pls where
  queues : PerLane (List Plan)
  serial : Half
deriving DecidableEq, Repr

inductive Quality where
  | good | spoiled
deriving DecidableEq, Repr

/-- Panel states (Figure 3-2). -/
inductive PanelState where
  | loop | web | cutting | done
deriving DecidableEq, Repr

/-- Void causes (Table 3-3). -/
inductive VoidCause where
  | splice | requested | missedCut | deviation | lineDamage | regLost | jog
deriving DecidableEq, Repr

/-- Miss causes (Table 5-4). -/
inductive MissCause where
  | tooLateToArm | notRegistered | knifeBusy | knifeUnavailable | jog | lineDamage | regLost
deriving DecidableEq, Repr

/-- Dispositions (Table 3-5). -/
inductive Disposition where
  | good | spoiled | void | uncut
deriving DecidableEq, Repr

/-- Mark statuses; an accepted mark holds its error e (R40). -/
inductive MarkStatus where
  | pending
  | accepted (e : Int)
  | missed
deriving DecidableEq, Repr

/-- Action statuses (Table 3-2); an action holds a fire position while ARMED or COMMITTED and a miss
cause when MISSED (R41). -/
inductive ActionStatus where
  | pending
  | armed (f : Word)
  | committed (f : Word)
  | fired
  | late
  | missed (c : MissCause)
  | dropped
deriving DecidableEq, Repr

/-- A mark entry (R40). -/
structure MarkEntry where
  offset : Nat
  status : MarkStatus
deriving DecidableEq, Repr

/-- An action entry (R41). -/
structure ActionEntry where
  offset : Nat
  kind   : ActionKind
  status : ActionStatus
deriving DecidableEq, Repr

/-- A panel record (Table 3-1) with its two predictions (R42). -/
structure Panel where
  serial      : Half
  tag         : Half
  lane        : Lane
  wLead       : Word
  length      : Nat
  quality     : Quality
  reprintOf   : Option Half
  state       : PanelState
  voidCause   : Option VoidCause
  marks       : List MarkEntry
  actions     : List ActionEntry
  disposition : Option Disposition
  leadReading : Word
  tailEvent   : Word
deriving DecidableEq, Repr

/-- A map cursor (R57). -/
inductive Cursor where
  | start (k : Lane)
  | coordinate (k : Lane) (w : Word)
  | atEnd
deriving DecidableEq, Repr

/-- The panel map: the places of R37 other than free, the outfeed-full flag and the cursors. -/
structure PanelMap where
  seqs        : PerLane (List Panel)
  waiting     : List Panel
  outfeed     : List Panel
  outfeedFull : Bool
  cursors     : PerPort Cursor
deriving DecidableEq, Repr

/-- Lane registration states (Figure 4-1). -/
inductive LaneState where
  | idle | acquire | track | coast | lost
deriving DecidableEq, Repr

/-- An expected mark (R68): whose mark it is, its web coordinate, its predicted nip reading and the
reading of its window expiry (R71). -/
structure Expected where
  serial : Half
  index  : Nat
  w      : Word
  pred   : Word
  expiry : Word
deriving DecidableEq, Repr

/-- A lane record (Table 4-1). `settling` says that the settle window and gain are in force: from a
tension change until the end of settle is taken (R83, R84; assumption 7). -/
structure LaneRec where
  state           : LaneState
  wref            : Word
  lref            : Word
  scale           : Nat
  missCount       : Nat
  settleRemaining : Nat
  settling        : Bool
  strayCount      : Half
  recovery        : Nat
  g1              : G1
  expected        : Option Expected
deriving DecidableEq, Repr

/-- The registration unit: one record per lane (R62). -/
structure Reg where
  lanes : PerLane LaneRec
deriving DecidableEq, Repr

/-- A fire list entry (Table 5-1); it waits while its deadline is present. `order` counts the actions
armed before it, so that entries of equal F stand in the order of arming (R90; assumption 36). -/
structure FireEntry where
  lane      : Lane
  serial    : Half
  index     : Nat
  kind      : ActionKind
  f         : Word
  heldLead  : Nat
  committed : Bool
  deadline  : Option Word
  order     : Nat
deriving DecidableEq, Repr

/-- The cut scheduler: the fire list in ascending F, and the actions armed so far (R90; assumption 36). -/
structure Csc where
  fireList : List FireEntry
  armings  : Nat
deriving DecidableEq, Repr

inductive StrokePhase where
  | leaving | away
deriving DecidableEq, Repr

/-- The record of the stroke in flight (R111, R112); the timer counts units of 10 µs. -/
structure Stroke where
  phase     : StrokePhase
  timer     : Nat
  timeoutMs : Nat
  kind      : ActionKind
  serial    : Half
  index     : Nat
deriving DecidableEq, Repr

/-- Knife states (Figure 6-1); STROKE holds the stroke in flight. -/
inductive KnifeState where
  | ready
  | stroke (r : Stroke)
  | fault
  | disabled
deriving DecidableEq, Repr

/-- A knife controller: state, lines and attribute rows (R111, Table 6-2). -/
structure Knife where
  state          : KnifeState
  disablePending : Bool
  home           : Bool
  fire           : Bool
  firePulseMs    : Nat
  depthHigh      : Bool
  strokes        : Nat
  lifeN          : Nat
  lifeWorst      : Nat
  lifeLatch      : Bool
  lastDuration   : Option Nat
  mean           : Nat
  timeN          : Nat
  timeWorst      : Nat
  timeLatch      : Bool
  preFail        : Bool
deriving DecidableEq, Repr

/-- The knife controllers. -/
structure Knc where
  knives : PerLane Knife
deriving DecidableEq, Repr

inductive Profile where
  | normal | splice
deriving DecidableEq, Repr

inductive SpliceKind where
  | film | web
deriving DecidableEq, Repr

/-- The passage of a splice as a line position event at its nip reading (R143): its entry was its passage
and there is no such event, the event lies ahead, or it has been delivered (R6; assumption 35). -/
inductive Passage where
  | entry | ahead | delivered
deriving DecidableEq, Repr

/-- A splice record (Table 7-3); `lower` and `upper` are the ends of its region, and `passage` says
whether its passage event is to be delivered. -/
structure Splice where
  kind   : SpliceKind
  nip    : Word
  lower  : Word
  upper  : Word
  retire : Word
  passed : Bool
  passage : Passage
deriving DecidableEq, Repr

/-- How far the FILM BREAK event of the present index distance has come: the distance was not found to
exceed the timeout, a line advance has made it exceed the timeout, or that event has been taken
(assumption 8). -/
inductive BreakWatch where
  | clear | due | held
deriving DecidableEq, Repr

/-- The tension unit (Table 7-1). -/
structure Ten where
  profile       : Profile
  c             : Option Nat
  measured      : Bool
  indexDistance : Nat
  duty          : Nat
  filmEnd       : Bool
  filmLow       : Bool
  splices       : List Splice
  breakWatch    : BreakWatch
deriving DecidableEq, Repr

/-- Line states (Figure 8-1). -/
inductive LineState where
  | offline | ready | run | drain | halted
deriving DecidableEq, Repr

/-- Line-damage causes, in the order of Table 8-3. -/
inductive LineCause where
  | reverseLimit | loopSensor | loopLow | filmBreak | filmEnd
deriving DecidableEq, Repr

/-- The line controller (R147, R149, R155); its open record is marked in the queue (assumption 16). -/
structure Lnc where
  line        : LineState
  haltCause   : Option LineCause
  configValid : Bool
deriving DecidableEq, Repr

inductive LaneCause where
  | regLost | knifeTimeout
deriving DecidableEq, Repr
inductive DegradationCause where
  | laneRecoveryRate | knifeWear
deriving DecidableEq, Repr
inductive PlanCause where
  | unplannedPrint | planSkipped | mapCleared
deriving DecidableEq, Repr
inductive WarningCause where
  | loopLow | loopHigh | filmLow | outfeedFull
deriving DecidableEq, Repr
inductive RecoveryCause where
  | encoderPhase | strayMarks | stretchLimit | markReacquired | cutDeviation | cutLate
deriving DecidableEq, Repr
inductive AccessCause where
  | lockRefused | writeRefused | lockBroken
deriving DecidableEq, Repr

/-- The class of a condition record and its cause within the class (Table 9-2). -/
inductive Cause where
  | lineDamage (c : LineCause)
  | laneDamage (c : LaneCause)
  | panelLoss (c : VoidCause)
  | degradation (c : DegradationCause)
  | planNotice (c : PlanCause)
  | warning (c : WarningCause)
  | recovery (c : RecoveryCause)
  | access (c : AccessCause)
deriving DecidableEq, Repr

/-- A condition record (Table 9-1). Beside its fields it holds the ports still owed it (R168, LINE
DAMAGE), the port it is bound to (R169, ACCESS NOTICE), and whether it is the line controller's open
record (R156, assumption 16). The four `has` fields are the validity set. -/
structure Record where
  cause       : Cause
  backedUp    : Bool
  ancillary   : Bool
  overflow    : Bool
  hasLane     : Bool
  hasPanel    : Bool
  hasPosition : Bool
  hasDetail   : Bool
  lane        : Option Lane
  count       : Nat
  serial      : Half
  tag         : Half
  position    : Word
  detail      : Int
  secondary   : List LineCause
  owed        : PerPort Bool
  bound       : Option Port
  isOpen      : Bool
deriving DecidableEq, Repr

/-- A class mask: the maskable classes it enables (R166). -/
structure Mask where
  panelLoss   : Bool
  degradation : Bool
  planNotice  : Bool
  warning     : Bool
  recovery    : Bool
deriving DecidableEq, Repr

/-- A request history entry (R177). -/
structure HistoryEntry where
  port   : Port
  kind   : Byte
  length : Byte
  bytes  : List Byte
  l      : Word
deriving DecidableEq, Repr

/-- An error log entry (Table 9-6). -/
structure LogEntry where
  cause    : Cause
  lane     : Option Lane
  position : Word
  detail   : Int
  line     : LineState
  laneStates : PerLane LaneState
  scales   : PerLane Nat
  history  : List HistoryEntry
deriving DecidableEq, Repr

/-- The error log: the slots 1 to 5, the pointer and the error count (R176). -/
structure ErrorLog where
  slots   : List (Option LogEntry)
  pointer : Nat
  count   : Nat
deriving DecidableEq, Repr

/-- The condition unit: the queue with its oldest record first, masks, present ports, error log and
request history with its newest entry first. -/
structure Cnd where
  queue   : List Record
  masks   : PerPort Mask
  present : PerPort Bool
  log     : ErrorLog
  history : List HistoryEntry
deriving DecidableEq, Repr

/-- Framer phases (R180). -/
inductive FramerPhase where
  | wait | kind | length | body | check | reply | trail
deriving DecidableEq, Repr

/-- A port framer: whether its chip select is asserted, its phase, and the reply bytes it shifts out
(R180). -/
structure Framer where
  cs    : Bool
  phase : FramerPhase
  out   : List Byte
deriving DecidableEq, Repr

/-- The lock table: the holder of each group, or free (R190). -/
structure Locks where
  g0 : Option Port
  g1 : Option Port
  g2 : Option Port
  g3 : Option Port
  g4 : Option Port
deriving DecidableEq, Repr

def Locks.get (t : Locks) : Group → Option Port
  | .g0 => t.g0 | .g1 => t.g1 | .g2 => t.g2 | .g3 => t.g3 | .g4 => t.g4

def Locks.set (t : Locks) (g : Group) (h : Option Port) : Locks :=
  match g with
  | .g0 => { t with g0 := h } | .g1 => { t with g1 := h } | .g2 => { t with g2 := h }
  | .g3 => { t with g3 := h } | .g4 => { t with g4 := h }

/-- The port interfaces and the parameter store (R180, R186, R190). -/
structure Pif where
  framers : PerPort Framer
  params  : Params
  locks   : Locks
deriving DecidableEq, Repr

/-- Table 10-5 and Table 9-2: the codes of states, causes and classes. -/
def LineState.code : LineState → Nat
  | .offline => 0 | .ready => 1 | .run => 2 | .drain => 3 | .halted => 4
def LaneState.code : LaneState → Nat
  | .idle => 0 | .acquire => 1 | .track => 2 | .coast => 3 | .lost => 4
def KnifeState.code : KnifeState → Nat
  | .ready => 0 | .stroke _ => 1 | .fault => 2 | .disabled => 3
def PanelState.code : PanelState → Nat
  | .loop => 0 | .web => 1 | .cutting => 2 | .done => 3
def VoidCause.code : VoidCause → Nat
  | .splice => 1 | .requested => 2 | .missedCut => 3 | .deviation => 4 | .lineDamage => 5
  | .regLost => 6 | .jog => 7
def Disposition.code : Disposition → Nat
  | .good => 1 | .spoiled => 2 | .void => 3 | .uncut => 4
def MarkStatus.code : MarkStatus → Nat
  | .pending => 0 | .accepted _ => 1 | .missed => 2
def ActionStatus.code : ActionStatus → Nat
  | .pending => 0 | .armed _ => 1 | .committed _ => 2 | .fired => 3 | .late => 4
  | .missed _ => 5 | .dropped => 6
def MissCause.code : MissCause → Nat
  | .tooLateToArm => 1 | .notRegistered => 2 | .knifeBusy => 3 | .knifeUnavailable => 4
  | .jog => 5 | .lineDamage => 6 | .regLost => 7
def ActionKind.code : ActionKind → Nat
  | .cut => 0 | .perf => 1
def LineCause.code : LineCause → Nat
  | .reverseLimit => 1 | .loopSensor => 2 | .loopLow => 3 | .filmBreak => 4 | .filmEnd => 5

/-- The class code of a record: 1 LINE DAMAGE to 8 ACCESS NOTICE (Table 10-5). -/
def Cause.classCode : Cause → Nat
  | .lineDamage _ => 1 | .laneDamage _ => 2 | .panelLoss _ => 3 | .degradation _ => 4
  | .planNotice _ => 5 | .warning _ => 6 | .recovery _ => 7 | .access _ => 8

/-- The cause code of a record, 1 upward within its class in the order of Table 9-2. -/
def Cause.code : Cause → Nat
  | .lineDamage c => c.code
  | .laneDamage .regLost => 1 | .laneDamage .knifeTimeout => 2
  | .panelLoss c => c.code
  | .degradation .laneRecoveryRate => 1 | .degradation .knifeWear => 2
  | .planNotice .unplannedPrint => 1 | .planNotice .planSkipped => 2
  | .planNotice .mapCleared => 3
  | .warning .loopLow => 1 | .warning .loopHigh => 2 | .warning .filmLow => 3
  | .warning .outfeedFull => 4
  | .recovery .encoderPhase => 1 | .recovery .strayMarks => 2 | .recovery .stretchLimit => 3
  | .recovery .markReacquired => 4 | .recovery .cutDeviation => 5 | .recovery .cutLate => 6
  | .access .lockRefused => 1 | .access .writeRefused => 2 | .access .lockBroken => 3

/-- The rank of a record at CONDITION TAKE and PEEK, higher first: ACCESS NOTICE stands below LANE
DAMAGE and above PANEL LOSS (R164). -/
def Cause.takeRank : Cause → Nat
  | .lineDamage _ => 8 | .laneDamage _ => 7 | .access _ => 6 | .panelLoss _ => 5
  | .degradation _ => 4 | .planNotice _ => 3 | .warning _ => 2 | .recovery _ => 1

/-- The rank of a record at a discard: ACCESS NOTICE equals RECOVERY (R164). -/
def Cause.discardRank : Cause → Nat
  | .lineDamage _ => 7 | .laneDamage _ => 6 | .panelLoss _ => 5 | .degradation _ => 4
  | .planNotice _ => 3 | .warning _ => 2 | .recovery _ => 1 | .access _ => 1

end Sys2Proof.Machine
end

