-- ==== Sys2Proof/Machine/Blocks.lean ====
section
/-! DEFINITION. What each block holds after power-on reset and pin reset, which have the same effect
(0.4.8). The pin levels read at the release are an argument. -/

namespace Sys2Proof.Machine

/-- MOT after reset (Table 1-6): the decoders take the channel levels and count nothing for them. -/
def Mot.reset (pins : PinLevels) : Mot :=
  { printPhase := pins.printChannels, linePhase := pins.lineChannels, p := 0, l := 0,
    highWater := 0, direction := .forward, printErrors := 0, lineErrors := 0,
    history := List.replicate 9 0, speed8 := 0 }

/-- LPM after reset (Table 1-6). -/
def Lpm.reset : Lpm :=
  { rxOpen := none, lp := 0, sampleAbsent := true, stale := true, sinceSampleMs := 0,
    lowStop := false, lowWarning := false, loopReason := true, highWarning := false,
    poolReason := false }

/-- PLS after reset (R18, R31). -/
def Pls.reset : Pls := { queues := .all [], serial := 0 }

/-- MAP after reset (R37, R53, R54, R57). -/
def PanelMap.reset : PanelMap :=
  { seqs := .all [], waiting := [], outfeed := [], outfeedFull := false,
    cursors := .all (.start .l0) }

/-- A lane record after reset (Table 4-1). -/
def LaneRec.reset : LaneRec :=
  { state := .idle, wref := 0, lref := 0, scale := 1000000, missCount := 0,
    settleRemaining := 0, settling := false, strayCount := 0, recovery := 0,
    g1 := G1.defaults, expected := none }

/-- A knife controller after reset with its home input at `home` (R111, R120). -/
def Knife.reset (home : Bool) : Knife :=
  { state := if home then .ready else .fault, disablePending := false, home := home,
    fire := false, firePulseMs := 0, depthHigh := false,
    strokes := 0, lifeN := 253, lifeWorst := 253, lifeLatch := false,
    lastDuration := none, mean := Params.defaults.g4.nominalStrokeTime, timeN := 253,
    timeWorst := 253, timeLatch := false, preFail := false }

/-- TEN after reset (Table 7-1). -/
def Ten.reset : Ten :=
  { profile := .normal, c := none, measured := false, indexDistance := 0,
    duty := Params.defaults.g2.minDuty, filmEnd := false, filmLow := false, splices := [],
    breakWatch := .clear }

/-- LNC after reset (R147, R149). -/
def Lnc.reset : Lnc :=
  { line := .offline, haltCause := none,
    configValid := Params.defaults.firstFailure.isNone }

/-- The class mask after reset (R166). -/
def Mask.reset : Mask :=
  { panelLoss := true, degradation := true, planNotice := true, warning := false,
    recovery := false }

/-- The error log when it is empty: after reset (R176) and after LOG CLEAR (R179). -/
def ErrorLog.cleared : ErrorLog :=
  { slots := List.replicate Config.logEntries none, pointer := 0, count := 0 }

/-- CND after reset (R162, R165, R166, R176, R177). -/
def Cnd.reset : Cnd :=
  { queue := [], masks := .all Mask.reset, present := .all false, log := .cleared, history := [] }

/-- A framer after reset: in WAIT, whatever the level of its chip select (R180). -/
def Framer.reset (cs : Bool) : Framer := { cs := cs, phase := .wait, out := [] }

/-- PIF after reset (R180, R186, R190). -/
def Pif.reset (pins : PinLevels) : Pif :=
  { framers := { pp := .reset pins.csP, fp := .reset pins.csF, jp := .reset pins.csJ },
    params := .defaults,
    locks := { g0 := none, g1 := none, g2 := none, g3 := none, g4 := none } }

/-- KNC0 to KNC3 after reset. -/
def Knc.reset (pins : PinLevels) : Knc :=
  { knives := { l0 := .reset pins.home0, l1 := .reset pins.home1, l2 := .reset pins.home2,
                l3 := .reset pins.home3 } }

/-- The pin levels of the reset that State.reset stands for: both encoders at (0, 0), every knife at
home, no chip select asserted (DESIGN CHOICE, assumption 6). -/
def pinsAtRest : PinLevels :=
  { printChannels := ⟨false, false⟩, lineChannels := ⟨false, false⟩, home0 := true, home1 := true,
    home2 := true, home3 := true, csP := false, csF := false, csJ := false }

end Sys2Proof.Machine
end

