-- ==== Sys2Proof/Machine/State.lean ====
section
/-! DEFINITION. The state of the WR-4: what each block holds, and the queue of commands that wait. -/

namespace Sys2Proof.Machine

/-- Everything the WR-4 holds, block by block (0.2), and the commands that wait, first in, first out. -/
structure State where
  mot : Mot
  lpm : Lpm
  pls : Pls
  map : PanelMap
  reg : Reg
  csc : Csc
  knc : Knc
  ten : Ten
  lnc : Lnc
  cnd : Cnd
  pif : Pif
  pending : List Instr
deriving DecidableEq, Repr

/-- Why a command stops the machine: the spec gives every command an effect, so there is no such
reason and this type has no constructor (safe). -/
inductive Fault where
deriving DecidableEq, Repr

/-- Why a command is refused. -/
inductive Refusal where
  /-- Raised by `exec` for a row of the table that has no meaning yet; no row is left so (safe). -/
  | notModelled (mnemonic : String)
deriving DecidableEq, Repr

/-- The part right after a reset with these pin levels at its release, with no command waiting. -/
def State.resetWith (pins : PinLevels) : State :=
  { mot := .reset pins, lpm := .reset, pls := .reset, map := .reset,
    reg := { lanes := .all .reset }, csc := { fireList := [], armings := 0 }, knc := .reset pins,
    ten := .reset, lnc := .reset, cnd := .reset, pif := .reset pins, pending := [] }

/-- The machine right after reset (0.4.8), with the pins at rest. -/
def State.reset : State := State.resetWith pinsAtRest

end Sys2Proof.Machine
end

