-- ==== Sys2Proof/Machine/Update.lean ====
section
/-! DEFINITION. Named readers and updates of State: whole blocks, and the lane, knife, sequence and
framer of one lane or port. -/

namespace Sys2Proof.Machine

def State.setMot (s : State) (b : Mot) : State := { s with mot := b }
def State.setLpm (s : State) (b : Lpm) : State := { s with lpm := b }
def State.setPls (s : State) (b : Pls) : State := { s with pls := b }
def State.setMap (s : State) (b : PanelMap) : State := { s with map := b }
def State.setReg (s : State) (b : Reg) : State := { s with reg := b }
def State.setCsc (s : State) (b : Csc) : State := { s with csc := b }
def State.setKnc (s : State) (b : Knc) : State := { s with knc := b }
def State.setTen (s : State) (b : Ten) : State := { s with ten := b }
def State.setLnc (s : State) (b : Lnc) : State := { s with lnc := b }
def State.setCnd (s : State) (b : Cnd) : State := { s with cnd := b }
def State.setPif (s : State) (b : Pif) : State := { s with pif := b }

/-- The lane record of lane `k`. -/
def State.lane (s : State) (k : Lane) : LaneRec := s.reg.lanes.get k

/-- The state with the lane record of lane `k` replaced. -/
def State.setLane (s : State) (k : Lane) (r : LaneRec) : State :=
  s.setReg { s.reg with lanes := s.reg.lanes.set k r }

/-- The knife controller of lane `k`. -/
def State.knife (s : State) (k : Lane) : Knife := s.knc.knives.get k

/-- The state with knife controller `k` replaced. -/
def State.setKnife (s : State) (k : Lane) (n : Knife) : State :=
  s.setKnc { s.knc with knives := s.knc.knives.set k n }

/-- The lane sequence of lane `k`. -/
def State.seq (s : State) (k : Lane) : List Panel := s.map.seqs.get k

/-- The state with the lane sequence of lane `k` replaced. -/
def State.setSeq (s : State) (k : Lane) (ps : List Panel) : State :=
  s.setMap { s.map with seqs := s.map.seqs.set k ps }

/-- The plan queue of lane `k`. -/
def State.plans (s : State) (k : Lane) : List Plan := s.pls.queues.get k

/-- The state with the plan queue of lane `k` replaced. -/
def State.setPlans (s : State) (k : Lane) (ps : List Plan) : State :=
  s.setPls { s.pls with queues := s.pls.queues.set k ps }

/-- The framer of port `p`. -/
def State.framer (s : State) (p : Port) : Framer := s.pif.framers.get p

/-- The state with the framer of port `p` replaced. -/
def State.setFramer (s : State) (p : Port) (f : Framer) : State :=
  s.setPif { s.pif with framers := s.pif.framers.set p f }

/-- The state with another condition queue. -/
def State.setQueue (s : State) (q : List Record) : State := s.setCnd { s.cnd with queue := q }

/-- The state with another fire list. -/
def State.setFireList (s : State) (es : List FireEntry) : State := s.setCsc { s.csc with fireList := es }

/-- The parameter store. -/
def State.params (s : State) : Params := s.pif.params

end Sys2Proof.Machine
end

