-- ==== Sys2Proof/Machine/Flags.lean ====
section
/-! DEFINITION. What follows from the held state at every moment: positions against the high-water,
standing conditions, free counts, the output lines PRINT_HOLD, LINE_STOP, BRAKE_PWM and ATTN, and the
window of a lane. -/

namespace Sys2Proof.Machine

/-- How far a reading lies ahead of the high-water, signed (0.4.3). -/
def State.ahead (s : State) (x : Word) : Int := x.diff s.mot.highWater

/-- A reading lies at or behind the high-water (R93). -/
def State.reached (s : State) (x : Word) : Bool := decide (s.ahead x ≤ 0)

/-- The back-off: the high-water minus L_now (R5). -/
def State.backOff (s : State) : Int := s.mot.highWater.diff s.mot.l

/-- The line is at high-water (R7). -/
def State.atHighWater (s : State) : Bool := s.mot.l == s.mot.highWater

/-- The line is in RUN or DRAIN. -/
def LineState.running : LineState → Bool
  | .run | .drain => true
  | .offline | .ready | .halted => false

/-- An action is resolved (R41). -/
def ActionStatus.resolved : ActionStatus → Bool
  | .fired | .late | .missed _ | .dropped => true
  | .pending | .armed _ | .committed _ => false

/-- An action's stroke has begun. -/
def ActionStatus.stroked : ActionStatus → Bool
  | .fired | .late => true
  | .pending | .armed _ | .committed _ | .missed _ | .dropped => false

/-- Every action of the panel is resolved (R45). -/
def Panel.allResolved (q : Panel) : Bool := q.actions.all (·.status.resolved)

/-- Some action of the panel is FIRED or LATE. -/
def Panel.anyStroked (q : Panel) : Bool := q.actions.any (·.status.stroked)

/-- The panel is in WEB or CUTTING. -/
def Panel.onWeb (q : Panel) : Bool := q.state == .web || q.state == .cutting

/-- The panels in all four lane sequences, lane by lane. -/
def State.inLine (s : State) : List Panel := s.seq .l0 ++ s.seq .l1 ++ s.seq .l2 ++ s.seq .l3

/-- The resident panels, in every place (R37). -/
def State.residents (s : State) : List Panel := s.inLine ++ s.map.waiting ++ s.map.outfeed

/-- The resident panels of one lane (R23, R29, R59). -/
def State.residentsOf (s : State) (k : Lane) : List Panel :=
  s.seq k ++ (s.map.waiting.filter (·.lane == k)) ++ (s.map.outfeed.filter (·.lane == k))

/-- The count of free panel records (R37). -/
def State.freePanels (s : State) : Nat := Config.panelRecords - s.residents.length

/-- The count of plan records that hold a plan. -/
def State.usedPlans (s : State) : Nat :=
  (s.plans .l0).length + (s.plans .l1).length + (s.plans .l2).length + (s.plans .l3).length

/-- The count of free plan records (R18). -/
def State.freePlans (s : State) : Nat := Config.planRecords - s.usedPlans

/-- The standing condition of a line-damage cause holds (Table 8-3). That of FILM BREAK follows a write to the
index timeout at the write, where its event waits for the next line advance (R134, R158; assumption 37). -/
def State.standing (s : State) : LineCause → Bool
  | .reverseLimit => decide ((s.params.g0.reverseLimit : Int) < s.backOff)
  | .loopSensor => s.lpm.stale
  | .loopLow => s.lpm.lowStop
  | .filmBreak => decide (s.params.g2.indexTimeout < s.ten.indexDistance)
  | .filmEnd => s.ten.filmEnd

/-- The standing conditions that hold, in the order of Table 8-3. -/
def State.standingCauses (s : State) : List LineCause :=
  [LineCause.reverseLimit, .loopSensor, .loopLow, .filmBreak, .filmEnd].filter s.standing

/-- The standing conditions as bits, in the order of Table 8-3 from bit 0 (R183). -/
def State.standingBits (s : State) : Nat :=
  flagNat (s.standing .reverseLimit) + 2 * flagNat (s.standing .loopSensor) +
    4 * flagNat (s.standing .loopLow) + 8 * flagNat (s.standing .filmBreak) +
    16 * flagNat (s.standing .filmEnd)

/-- The record detail of a line-damage cause (Table 8-3). -/
def State.causeDetail (s : State) : LineCause → Int
  | .reverseLimit => s.backOff
  | .loopSensor => s.lpm.sinceSampleMs
  | .loopLow => s.lpm.lp
  | .filmBreak => s.ten.indexDistance
  | .filmEnd => s.ten.c.getD 0

/-- PRINT_HOLD is asserted (R17). -/
def State.printHold (s : State) : Bool := s.lpm.loopReason || s.lpm.poolReason

/-- LINE_STOP is asserted (R147). -/
def State.lineStop (s : State) : Bool := s.lnc.line == .offline || s.lnc.line == .halted

/-- The level on BRAKE_PWM: D, or 4,095 − D in the INVERTED format (R133). -/
def State.brakeLevel (s : State) : Nat :=
  if s.params.g2.inverted then 4095 - s.ten.duty else s.ten.duty

/-- The computed duty of R132, from C or from C_full while C is absent. -/
def State.computedDuty (s : State) : Nat :=
  let g := s.params.g2
  dutyOf (match s.ten.profile with | .normal => g.normalBase | .splice => g.spliceBase)
    (s.ten.c.getD g.cFull) g.cFull g.minDuty g.maxDuty

/-- The duty that the line state calls for: the computed duty in READY, RUN and DRAIN, min duty in
OFFLINE and HALTED (R133). -/
def State.wantedDuty (s : State) : Nat :=
  match s.lnc.line with
  | .ready | .run | .drain => s.computedDuty
  | .offline | .halted => s.params.g2.minDuty

/-- A mask enables the class of a cause; the classes outside the five are not masked (R166). -/
def Mask.enables (m : Mask) : Cause → Bool
  | .panelLoss _ => m.panelLoss
  | .degradation _ => m.degradation
  | .planNotice _ => m.planNotice
  | .warning _ => m.warning
  | .recovery _ => m.recovery
  | .lineDamage _ | .laneDamage _ | .access _ => true

/-- A record is deliverable to a port (R167). -/
def Cnd.deliverable (c : Cnd) (p : Port) (r : Record) : Bool :=
  match r.cause with
  | .lineDamage _ => r.owed.get p
  | .laneDamage _ => c.present.get p
  | .access _ => r.bound == some p
  | .panelLoss _ | .degradation _ | .planNotice _ | .warning _ | .recovery _ =>
    c.present.get p && (c.masks.get p).enables r.cause

/-- The attention line of a port is asserted (R173). -/
def State.attention (s : State) (p : Port) : Bool := s.cnd.queue.any (s.cnd.deliverable p)

/-- A lane in this state has an expected mark (R68). -/
def LaneState.expects : LaneState → Bool
  | .acquire | .track | .coast => true
  | .idle | .lost => false

/-- The state window (Table 4-3). -/
def LaneRec.stateWindow (r : LaneRec) : Nat :=
  match r.state with
  | .acquire => r.g1.acquireWindow
  | .track => r.g1.trackWindow
  | .coast => min r.g1.acquireWindow (r.g1.trackWindow * (1 + r.missCount))
  | .idle | .lost => 0

/-- The window of a lane's expected mark, wider while settle is in force (R70). -/
def LaneRec.window (r : LaneRec) : Nat :=
  if r.settling then max r.stateWindow (min r.g1.acquireWindow (4 * r.g1.trackWindow))
  else r.stateWindow

/-- The gain of a scale update: doubled and capped at 16 while settle is in force (R77). -/
def LaneRec.updateGain (r : LaneRec) : Nat :=
  if r.settling then min 16 (2 * r.g1.gain) else r.g1.gain

/-- The predicted nip reading of a point of lane `k` (R64). -/
def State.predictAt (s : State) (k : Lane) (w : Word) : Word :=
  predict (s.lane k).wref (s.lane k).lref (s.lane k).scale w

/-- Sensor and knife distance of a lane (G0). -/
def State.sensorAt (s : State) (k : Lane) : Nat := s.params.g0.sensorDistance.get k
def State.knifeAt (s : State) (k : Lane) : Nat := s.params.g0.knifeDistance.get k

/-- The predicted fire position of a point of lane `k` with a lead (R93). -/
def State.firePosition (s : State) (k : Lane) (w : Word) (lead : Nat) : Word :=
  (s.predictAt k w).shift ((s.knifeAt k : Int) - lead)

/-- The lead that stands now for lane `k` (R92). -/
def State.leadNow (s : State) (k : Lane) : Nat :=
  leadOf s.mot.speed8 (s.params.g4.actuationTime.get k)

end Sys2Proof.Machine
end

