-- ==== Sys2Proof/Machine/Operands.lean ====
section
/-! DEFINITION. The fields of request bodies (Table 10-1) and the layouts of reply bodies (Tables 10-7 to
10-12), most significant byte first (10.6). -/

namespace Sys2Proof.Machine

/-! ### Request bodies -/

/-- The `n` bytes of a body from offset `i`, as a number. -/
def field (body : List Byte) (i n : Nat) : Nat := beNat ((body.drop i).take n)

/-- A field of two bytes: a tag or a serial. -/
def field16 (body : List Byte) (i : Nat) : Half := BitVec.ofNat 16 (field body i 2)

/-- A field of four bytes: a reading, a web coordinate or a value. -/
def field32 (body : List Byte) (i : Nat) : Word := BitVec.ofNat 32 (field body i 4)

/-- The lane or knife that a one-byte body names; none for another length or a number above 3. -/
def bodyLane : List Byte → Option Lane
  | [b] => laneOf b.toNat
  | _ => none

/-- The group that a one-byte body names; none for another length or a number above 4. -/
def bodyGroup : List Byte → Option Group
  | [b] => groupOf b.toNat
  | _ => none

/-- The parameter that the first three bytes of a body name (R187). -/
def bodyParam (body : List Byte) : Option Param := paramOf (field body 0 1) (field body 1 1) (field body 2 1)

/-! ### Reply bodies -/

/-- The lane byte of a record, FFh for lane "none" (Tables 10-8 and 10-11). -/
def laneByte : Option Lane → List Byte
  | some k => be1 (laneNumber k)
  | none => [0xFF]

/-- One mark of a panel record (Table 10-7). -/
def markBytes (m : MarkEntry) : List Byte :=
  be3 m.offset ++ be1 m.status.code ++ intBytes4 (match m.status with | .accepted e => e | _ => 0)

/-- The fire position that an action holds while ARMED or COMMITTED, 0 when absent (R41). -/
def ActionStatus.position : ActionStatus → Word
  | .armed f | .committed f => f
  | .pending | .fired | .late | .missed _ | .dropped => 0

/-- The miss cause code of an action, 0 for none (Table 10-5). -/
def ActionStatus.missCode : ActionStatus → Nat
  | .missed c => c.code
  | .pending | .armed _ | .committed _ | .fired | .late | .dropped => 0

/-- One action of a panel record (Table 10-7). -/
def actionBytes (a : ActionEntry) : List Byte :=
  be3 a.offset ++ be1 a.kind.code ++ be1 a.status.code ++ be1 a.status.missCode ++
    wordBytes a.status.position

/-- The place of a resident panel (Figure 3-1). -/
inductive Place where
  | laneSequence | waitingList | outfeedList
deriving DecidableEq, Repr

def Place.code : Place → Nat
  | .laneSequence => 0 | .waitingList => 1 | .outfeedList => 2

/-- The code of an optional void cause, 0 for none. -/
def voidCode : Option VoidCause → Nat
  | some c => c.code
  | none => 0

/-- The code of an optional disposition, 0 for not settled. -/
def dispositionCode : Option Disposition → Nat
  | some d => d.code
  | none => 0

/-- A panel record as MAP READ and OUTFEED TAKE return it (Table 10-7): predictions are present for a
panel in its lane sequence, and an absent field is 0 (R60). -/
def panelBytes (q : Panel) (place : Place) : List Byte :=
  let inSequence := place == .laneSequence
  be2 q.serial.toNat ++ be2 q.tag.toNat ++ be1 (laneNumber q.lane) ++ be1 place.code ++
    be1 q.state.code ++
    be1 (flagNat (q.quality == .spoiled) + 2 * flagNat q.reprintOf.isSome + 4 * flagNat inSequence) ++
    be1 (voidCode q.voidCause) ++ be1 (dispositionCode q.disposition) ++
    wordBytes q.wLead ++ be4 q.length ++ be2 (q.reprintOf.getD 0).toNat ++
    wordBytes (if inSequence then q.leadReading else 0) ++
    wordBytes (if inSequence then q.tailEvent else 0) ++
    be1 q.marks.length ++ be1 q.actions.length ++
    q.marks.flatMap markBytes ++ q.actions.flatMap actionBytes

/-- The modifiers of a record as bits (Table 10-8). -/
def Record.modifierBits (r : Record) : Nat :=
  flagNat r.backedUp + 2 * flagNat r.ancillary + 4 * flagNat r.overflow

/-- The validity set of a record as bits (Table 10-8). -/
def Record.validityBits (r : Record) : Nat :=
  flagNat r.hasLane + 2 * flagNat r.hasPanel + 4 * flagNat r.hasPosition + 8 * flagNat r.hasDetail

/-- A condition record with the remaining number (Table 10-8). -/
def recordBytes (remaining : Nat) (r : Record) : List Byte :=
  be1 remaining ++ be1 r.cause.classCode ++ be1 r.cause.code ++ be1 r.modifierBits ++
    be1 r.validityBits ++ laneByte r.lane ++ be1 r.count ++ be2 r.serial.toNat ++ be2 r.tag.toNat ++
    wordBytes r.position ++ intBytes4 r.detail ++ be1 r.secondary.length ++
    r.secondary.flatMap fun c => be1 c.code

/-- A class mask in the bit order of the note to Table 10-8. -/
def Mask.bits (m : Mask) : Nat :=
  flagNat m.panelLoss + 2 * flagNat m.degradation + 4 * flagNat m.planNotice + 8 * flagNat m.warning +
    16 * flagNat m.recovery

/-- The class mask that a body byte names. -/
def Mask.ofBits (n : Nat) : Mask :=
  { panelLoss := n.testBit 0, degradation := n.testBit 1, planNotice := n.testBit 2,
    warning := n.testBit 3, recovery := n.testBit 4 }

/-- A WRONG STATE body that names the line state (Table 10-9). -/
def lineStateBody (l : LineState) : List Byte := be1 1 ++ be1 l.code
/-- A WRONG STATE body that names a lane state. -/
def laneStateBody (l : LaneState) : List Byte := be1 2 ++ be1 l.code
/-- A WRONG STATE body that names a knife state. -/
def knifeStateBody (n : KnifeState) : List Byte := be1 3 ++ be1 n.code

/-- What a CONFIG INVALID body holds after the line state (Table 10-9). -/
def ConfigFailure.bytes : ConfigFailure → List Byte
  | .geometry k => be1 1 ++ be1 (laneNumber k)
  | .value g i n => be1 2 ++ be1 g ++ be1 i ++ be1 n

/-- The line section of STATUS READ (Tables 10-3 and 10-10). -/
def State.lineBytes (s : State) : List Byte :=
  be1 s.lnc.line.code ++ flagByte s.lineStop ++
    be1 (match s.lnc.haltCause with | some c => c.code | none => 0) ++ be1 s.standingBits ++
    flagByte s.lnc.configValid ++
    be1 (flagNat s.cnd.present.pp + 2 * flagNat s.cnd.present.fp + 4 * flagNat s.cnd.present.jp)

/-- The motion section. -/
def State.motionBytes (s : State) : List Byte :=
  wordBytes s.mot.p ++ wordBytes s.mot.l ++ wordBytes s.mot.highWater ++
    flagByte (s.mot.direction == .reverse) ++ intBytes2 s.mot.speed8 ++ be1 s.mot.printErrors ++
    be1 s.mot.lineErrors

/-- The loop section. -/
def State.loopBytes (s : State) : List Byte :=
  be4 s.lpm.lp ++ flagByte s.lpm.sampleAbsent ++ flagByte s.lpm.stale ++ flagByte s.printHold ++
    flagByte s.lpm.loopReason ++ flagByte s.lpm.poolReason

/-- The section of the map and the plans. -/
def State.poolBytes (s : State) : List Byte :=
  be1 s.freePanels ++ be1 s.map.outfeed.length ++ be1 s.map.waiting.length ++ be1 s.freePlans

/-- The section of one lane. -/
def State.laneBytes (s : State) (k : Lane) : List Byte :=
  be1 (s.lane k).state.code ++ be4 (s.lane k).scale ++ be1 (s.lane k).missCount ++
    be4 (s.lane k).settleRemaining

/-- The section of one knife. -/
def State.knifeBytes (s : State) (k : Lane) : List Byte :=
  be1 (s.knife k).state.code ++ flagByte (s.knife k).disablePending ++ flagByte (s.knife k).preFail

/-- The tension section. -/
def State.tensionBytes (s : State) : List Byte :=
  flagByte (s.ten.profile == .splice) ++ be3 (s.ten.c.getD 0) ++ flagByte s.ten.measured ++
    be3 s.ten.indexDistance ++ be2 s.ten.duty ++ be2 s.brakeLevel ++ flagByte s.ten.filmEnd ++
    flagByte s.ten.filmLow ++ be1 s.ten.splices.length

/-- The STATUS READ reply (R185, Table 10-10). -/
def State.statusBytes (s : State) : List Byte :=
  s.lineBytes ++ s.motionBytes ++ s.loopBytes ++ s.poolBytes ++ lanes.flatMap s.laneBytes ++
    lanes.flatMap s.knifeBytes ++ s.tensionBytes

/-- A request history entry as LOG READ returns it (Table 10-11). -/
def historyBytes (h : HistoryEntry) : List Byte :=
  be1 (portNumber h.port) ++ [h.kind, h.length] ++ h.bytes ++ wordBytes h.l

/-- An error log entry as LOG READ returns it (Table 10-11). -/
def LogEntry.bytes (e : LogEntry) : List Byte :=
  be1 e.cause.classCode ++ be1 e.cause.code ++ laneByte e.lane ++ wordBytes e.position ++
    intBytes4 e.detail ++ be1 e.line.code ++
    (lanes.flatMap fun k => be1 (e.laneStates.get k).code ++ be4 (e.scales.get k)) ++
    be1 e.history.length ++ e.history.flatMap historyBytes

/-- The first three bytes of Table 10-11: the pointer and the error count. -/
def ErrorLog.headBytes (g : ErrorLog) : List Byte := be1 g.pointer ++ be2 g.count

/-- The ATTRIBUTE READ reply (R126, Table 10-12). -/
def State.attributeBytes (s : State) (k : Lane) : List Byte :=
  let n := s.knife k
  let g := s.params.g4
  be1 n.state.code ++ flagByte n.preFail ++
    be1 1 ++ be3 n.strokes ++ be1 n.lifeN ++ be1 n.lifeWorst ++ be1 (g.lifeThreshold.get k) ++
    flagByte (g.lifePreFailure.get k) ++ flagByte n.lifeLatch ++
    be1 2 ++ be3 (n.lastDuration.getD 0) ++ be3 n.mean ++ be1 n.timeN ++ be1 n.timeWorst ++
    be1 (g.timeThreshold.get k) ++ flagByte (g.timePreFailure.get k) ++ flagByte n.timeLatch

end Sys2Proof.Machine
end

