-- ==== Sys2Proof/Machine/Reports.lean ====
section
/-! DEFINITION. What blocks report and what the condition unit does with it: records and their placing
(R162, R170), the error log (R176), warnings withdrawn (R174), and the recovery counters (R89). -/

namespace Sys2Proof.Machine

/-- A new record with a count of 1: a field that is given is in the validity set (R162). -/
def newRecord (cause : Cause) (lane : Option Lane) (panel : Option (Half × Half))
    (position : Option Word) (detail : Option Int) : Record :=
  { cause := cause, backedUp := false, ancillary := false, overflow := false,
    hasLane := lane.isSome, hasPanel := panel.isSome, hasPosition := position.isSome,
    hasDetail := detail.isSome, lane := lane, count := 1,
    serial := (panel.map (·.1)).getD 0, tag := (panel.map (·.2)).getD 0,
    position := position.getD 0, detail := detail.getD 0, secondary := [],
    owed := .all false, bound := none, isOpen := false }

/-- Records of this class are merged (step 1 of R170). -/
def Cause.merges : Cause → Bool
  | .recovery _ | .warning _ => true
  | _ => false

/-- The queue with `r` merged into a record of the same class, cause and lane, if one stands there
(step 1 of R170). -/
def mergeInto (r : Record) : List Record → Option (List Record)
  | [] => none
  | x :: xs =>
    if x.cause = r.cause ∧ x.lane = r.lane then some ({ x with count := min 255 (x.count + 1) } :: xs)
    else (mergeInto r xs).map (x :: ·)

/-- The lowest discard rank of a queue. -/
def lowestRank : List Record → Option Nat
  | [] => none
  | x :: xs =>
    match lowestRank xs with
    | none => some x.cause.discardRank
    | some n => some (min x.cause.discardRank n)

/-- The queue without its oldest record of a discard rank (step 3 of R170). -/
def dropOldest (rank : Nat) : List Record → List Record
  | [] => []
  | x :: xs => if x.cause.discardRank = rank then xs else x :: dropOldest rank xs

/-- The queue with OVERFLOW set on its newest record (step 4 of R170). -/
def overflowNewest : List Record → List Record
  | [] => []
  | [x] => [{ x with overflow := true }]
  | x :: xs => x :: overflowNewest xs

/-- Steps 2 to 4 of R170: the queue, and whether the new record stands in it. -/
def placeNew (r : Record) (q : List Record) : List Record × Bool :=
  if q.length < Config.conditionRecords then (q ++ [r], true)
  else
    match lowestRank q with
    | some n =>
      if n < r.cause.discardRank then (dropOldest n q ++ [{ r with overflow := true }], true)
      else (overflowNewest q, false)
    | none => (q, false)

/-- R170: merge, free slot, discard below, or discard the new record. -/
def placeRecord (r : Record) (q : List Record) : List Record × Bool :=
  match (if r.cause.merges then mergeInto r q else none) with
  | some q' => (q', false)
  | none => placeNew r q

/-- A record that is no LINE DAMAGE record is reported to the condition unit. -/
def State.report (s : State) (r : Record) : State := s.setQueue (placeRecord r s.cnd.queue).1

/-- The registration of every lane, as an error log entry holds it (Table 9-6). -/
def State.laneStates (s : State) : PerLane LaneState := s.reg.lanes.map (·.state)
def State.scales (s : State) : PerLane Nat := s.reg.lanes.map (·.scale)

/-- The error log with a new entry: into the slot after the pointer, slot 1 after slot 5 (R176). -/
def ErrorLog.write (g : ErrorLog) (e : LogEntry) : ErrorLog :=
  let slot := g.pointer % Config.logEntries
  { slots := g.slots.set slot (some e), pointer := slot + 1, count := min 65535 (g.count + 1) }

/-- The error log entry of a record whose cause was taken in line state `line` (R176). -/
def State.logEntryOf (s : State) (r : Record) (line : LineState) : LogEntry :=
  { cause := r.cause, lane := r.lane, position := r.position, detail := r.detail, line := line,
    laneStates := s.laneStates, scales := s.scales, history := s.cnd.history }

/-- The state with an error log entry written for the record. -/
def State.writeLog (s : State) (r : Record) (line : LineState) : State :=
  s.setCnd { s.cnd with log := s.cnd.log.write (s.logEntryOf r line) }

/-- A LANE DAMAGE record: its error log entry is written and it is reported (R176). -/
def State.reportLaneDamage (s : State) (r : Record) : State :=
  (s.writeLog r s.lnc.line).report r

/-- Some port is present. -/
def PerPort.anyTrue (t : PerPort Bool) : Bool := t.pp || t.fp || t.jp

/-- A LINE DAMAGE record: its error log entry is written; it is owed to the ports present and is not
placed when there is none (R168); when it is placed it becomes the open record (R156). -/
def State.reportLineDamage (s : State) (r : Record) (line : LineState) : State :=
  let s := s.writeLog r line
  if s.cnd.present.anyTrue then
    let r := { r with owed := s.cnd.present, isOpen := true }
    match placeNew r (s.cnd.queue.map fun x => { x with isOpen := false }) with
    | (q, true) => s.setQueue q
    | (_, false) => s.setQueue (placeNew r s.cnd.queue).1
  else s

/-- A warning has cleared: its untaken records leave the queue (R174). -/
def State.withdraw (s : State) (c : WarningCause) : State :=
  s.setQueue (s.cnd.queue.filter fun r => !(r.cause == .warning c && r.lane == none))

/-- One RECOVERY report counted for lane `k`: at the degradation threshold a DEGRADATION record is made
and the counter returns to 0 (R89). -/
def State.countRecovery (s : State) (k : Lane) : State :=
  let r := s.lane k
  if r.g1.degradationThreshold ≤ r.recovery + 1 then
    (s.setLane k { r with recovery := 0 }).report
      (newRecord (.degradation .laneRecoveryRate) (some k) none (some s.mot.l)
        (some r.g1.degradationThreshold))
  else s.setLane k { r with recovery := r.recovery + 1 }

/-- A RECOVERY report for lane `k`, placed or merged, and counted (R89). -/
def State.reportRecovery (s : State) (k : Lane) (r : Record) : State := (s.report r).countRecovery k

/-- A WARNING report: lane "none", position L_now. -/
def State.reportWarning (s : State) (c : WarningCause) (detail : Int) : State :=
  s.report (newRecord (.warning c) none none (some s.mot.l) (some detail))

/-- An ACCESS NOTICE bound to a port (R169). -/
def State.reportAccess (s : State) (c : AccessCause) (bound : Port) (detail : Int) : State :=
  s.report { newRecord (.access c) none none (some s.mot.l) (some detail) with bound := some bound }

end Sys2Proof.Machine
end

