-- ==== Sys2Proof/Machine/Ports.lean ====
section
/-! DEFINITION. The port interfaces: the framer of a port (R180), the taking of a request (R181, R182), the
request history (R177), and the commands on the lines of a port. A frame of this model is one command,
so the framer passes KIND, LENGTH, BODY and CHECK inside it (assumption 5). -/

namespace Sys2Proof.Machine

/-! ### Verdicts -/

/-- What the rule of a request makes of it: a refusal, with the report that the refusal makes, or an
acceptance with its effects and its reply body. -/
inductive Verdict where
  | refused (code : ReplyCode) (body : List Byte) (report : State → State)
  | accepted (effect : State → State × List Byte)

/-- A refusal with an empty body and no report. -/
def Verdict.refuse (code : ReplyCode) : Verdict := .refused code [] id

/-- A WRONG STATE refusal that names a state. -/
def Verdict.wrong (body : List Byte) : Verdict := .refused .wrongState body id

/-- An acceptance whose reply has no body. -/
def Verdict.perform (f : State → State) : Verdict := .accepted fun s => (f s, [])

/-- An acceptance that changes nothing. -/
def Verdict.tell (body : List Byte) : Verdict := .accepted fun s => (s, body)

/-- A request without a body: refused BAD ARGUMENT when it carries one (R182). -/
def withoutBody (body : List Byte) (v : Verdict) : Verdict :=
  if body.isEmpty then v else .refuse .badArgument

/-! ### The request history and presence -/

/-- The first four body bytes, those beyond the body read as 0 (R177). -/
def firstFour (body : List Byte) : List Byte := (body ++ [0, 0, 0, 0]).take 4

/-- The state with an accepted request added to the request history, newest first, at most 6 (R177). -/
def State.recordRequest (s : State) (p : Port) (r : Request) (body : List Byte) : State :=
  if r.joinsHistory then
    s.setCnd { s.cnd with
      history := ({ port := p, kind := r.kind, length := byteOf body.length,
                    bytes := firstFour body, l := s.mot.l } :: s.cnd.history).take
        Config.historyEntries }
  else s

/-- The port becomes present (R165). -/
def State.markPresent (s : State) (p : Port) : State :=
  s.setCnd { s.cnd with present := s.cnd.present.set p true }

/-! ### Taking a frame -/

/-- The reply as the framer shifts it out: code, length, body and CRC (R180, R181). -/
def Reply.frame (r : Reply) : List Byte :=
  let bytes := r.code.code :: byteOf r.body.length :: r.body
  bytes ++ [crc8 bytes]

/-- The phase of a framer after one more byte of a frame, with the body bytes still to come: the kind, the
length, the body bytes, none of them with n = 0, and the CRC (R180). -/
def FramerPhase.afterByte : FramerPhase × Nat → FramerPhase × Nat
  | (.kind, n) => (.length, n)
  | (.length, 0) => (.check, 0)
  | (.length, n + 1) => (.body, n + 1)
  | (.body, n + 2) => (.body, n + 1)
  | (.body, _) => (.check, 0)
  | (.check, n) => (.reply, n)
  | (.wait, n) => (.wait, n)
  | (.reply, n) => (.reply, n)
  | (.trail, n) => (.trail, n)

/-- The phase of a framer that was in `phase`, after `count` bytes of a frame with `n` body bytes. -/
def FramerPhase.after (phase : FramerPhase) (n count : Nat) : FramerPhase :=
  (Nat.iterate FramerPhase.afterByte count (phase, n)).1

/-- The byte that a framer shifts out as the `i`-th byte of its phase: 00h while it receives, the reply, and
FFh behind it; none in WAIT (R180). -/
def Framer.shiftsOut (f : Framer) (i : Nat) : Option Byte :=
  match f.phase with
  | .wait => none
  | .kind | .length | .body | .check => some 0x00
  | .reply => some (f.out.getD i 0xFF)
  | .trail => some 0xFF

/-- The framer of a port has taken the bytes of a frame with this body and enters REPLY with a reply to
shift out (R180). -/
def State.sendReply (s : State) (p : Port) (body : List Byte) (r : Reply) : State :=
  s.setFramer p { s.framer p with
    phase := (s.framer p).phase.after body.length (body.length + 3), out := r.frame }

/-- The request is answered by its verdict; an accepted one joins the request history before its effects
are carried out (R177, R182). -/
def State.answer (s : State) (p : Port) (r : Request) (body : List Byte) : Verdict → State × Reply
  | .refused code b report => (report s, ⟨code, b⟩)
  | .accepted effect =>
    let (s, b) := effect (s.recordRequest p r body)
    (s, ⟨.accepted, b⟩)

/-- The refusal at step 3 of R182; a line request's reply holds the line state (R183, assumption 13). -/
def State.notPermitted (s : State) (r : Request) : Reply :=
  ⟨.notPermitted, if r.isLine then be1 s.lnc.line.code else []⟩

/-- Steps 1, 3 and 4 of R182 for a frame with a correct CRC whose kind names request `r`. -/
def State.request (s : State) (p : Port) (r : Request) (body : List Byte) (rule : State → Verdict) :
    State :=
  let s := s.markPresent p
  let (s, reply) :=
    if r.allowed p then s.answer p r body (rule s) else (s, s.notPermitted r)
  s.sendReply p body reply

/-- A frame reaches a port only in phase KIND: with chip select asserted and no frame taken since its
assertion (R180). -/
def State.receiving (s : State) (p : Port) : Bool := (s.framer p).phase == .kind

/-- A request command: taken by R182 in phase KIND, and nothing otherwise. -/
def takeRequest (p : Port) (r : Request) (body : List Byte) (rule : State → Verdict) (s : State) :
    Host.Outcome State Fault Refusal :=
  .next (if s.receiving p then s.request p r body rule else s)

/-! ### Commands on the lines of a port -/

/-- CS_ASSERTION (R180): a framer in WAIT enters KIND. -/
def execCsAssertion (p : Port) (s : State) : Host.Outcome State Fault Refusal :=
  let f := s.framer p
  .next (if f.cs then s
    else s.setFramer p { f with cs := true, phase := if f.phase = .wait then .kind else f.phase })

/-- CS_RELEASE (R180): the framer returns to WAIT from any phase. -/
def execCsRelease (p : Port) (s : State) : Host.Outcome State Fault Refusal :=
  .next (s.setFramer p { cs := false, phase := .wait, out := [] })

/-- REPLY_COMPLETE (R180): after the reply CRC the framer enters TRAIL. -/
def execReplyComplete (p : Port) (s : State) : Host.Outcome State Fault Refusal :=
  let f := s.framer p
  .next (if f.phase = .reply then s.setFramer p { f with phase := .trail, out := [] } else s)

end Sys2Proof.Machine
end

