-- ==== Sys2Proof/Machine/Conditions.lean ====
section
/-! DEFINITION. The requests of the condition unit: MASK SET (R166), CONDITION TAKE and CONDITION PEEK
(R171, R172), LOG READ and LOG CLEAR (R178, R179). -/

namespace Sys2Proof.Machine

/-- MASK SET (R166): bits 0 to 4 name the maskable classes, and a body that sets another is refused. -/
def maskSetRule (p : Port) (body : List Byte) (_ : State) : Verdict :=
  match body with
  | [b] =>
    if b.toNat < 32 then .accepted fun s =>
      (s.setCnd { s.cnd with masks := s.cnd.masks.set p (Mask.ofBits b.toNat) },
        be1 (Mask.ofBits b.toNat).bits)
    else .refuse .badArgument
  | _ => .refuse .badArgument

/-- The highest take rank among the records deliverable to a port; 0 when there is none (R171). -/
def Cnd.topRank (c : Cnd) (p : Port) : Nat :=
  (c.queue.filter (c.deliverable p)).foldl (fun n r => max n r.cause.takeRank) 0

/-- A record that CND selects for a port: deliverable, of the highest take rank (R171). -/
def Cnd.selects (c : Cnd) (p : Port) (r : Record) : Bool :=
  c.deliverable p r && r.cause.takeRank == c.topRank p

/-- The record selected at CONDITION TAKE and CONDITION PEEK: the oldest of those (R171). -/
def Cnd.selected (c : Cnd) (p : Port) : Option Record := c.queue.find? (c.selects p)

/-- The number of records deliverable to a port. -/
def Cnd.deliverableCount (c : Cnd) (p : Port) : Nat := (c.queue.filter (c.deliverable p)).length

/-- What a take at a port leaves of the record: nothing of a floating or bound one, and nothing of a
LINE DAMAGE record that is owed to no further port (R168, R171). -/
def Record.afterTake (r : Record) (p : Port) : Option Record :=
  match r.cause with
  | .lineDamage _ =>
    let owed := r.owed.set p false
    if owed.anyTrue then some { r with owed := owed } else none
  | _ => none

/-- The queue with its first record that satisfies `sel` taken at a port. -/
def takeFirst (p : Port) (sel : Record → Bool) : List Record → List Record
  | [] => []
  | x :: xs =>
    if sel x then
      match x.afterTake p with
      | some y => y :: xs
      | none => xs
    else x :: takeFirst p sel xs

/-- The condition unit after a take at a port (R171). -/
def Cnd.take (c : Cnd) (p : Port) : Cnd := { c with queue := takeFirst p (c.selects p) c.queue }

/-- CONDITION TAKE (R171). -/
def conditionTakeRule (p : Port) (body : List Byte) (s : State) : Verdict :=
  withoutBody body
    (match s.cnd.selected p with
      | some r => .accepted fun s =>
          (s.setCnd (s.cnd.take p), recordBytes ((s.cnd.take p).deliverableCount p) r)
      | none => .refused .empty (be1 0) id)

/-- CONDITION PEEK (R172). -/
def conditionPeekRule (p : Port) (body : List Byte) (s : State) : Verdict :=
  withoutBody body
    (match s.cnd.selected p with
      | some r => .tell (recordBytes ((s.cnd.take p).deliverableCount p) r)
      | none => .refused .empty (be1 0) id)

/-- The number of entries the error log holds. -/
def ErrorLog.held (g : ErrorLog) : Nat := (g.slots.filter Option.isSome).length

/-- LOG READ (R178). -/
def logReadRule (_ : Port) (body : List Byte) (s : State) : Verdict :=
  match body with
  | [b] =>
    let g := s.cnd.log
    match b.toNat with
    | 0 => .tell (g.headBytes ++ be1 g.held)
    | n + 1 =>
      if n < Config.logEntries then
        match (g.slots[n]?).join with
        | some e => .tell (g.headBytes ++ e.bytes)
        | none => .refused .empty g.headBytes id
      else .refuse .badArgument
  | _ => .refuse .badArgument

/-- LOG CLEAR (R179). -/
def logClearRule (_ : Port) (body : List Byte) (_ : State) : Verdict :=
  withoutBody body (.perform fun s => s.setCnd { s.cnd with log := ErrorLog.cleared })

def execMaskSet (p : Port) (b : List Byte) (s : State) : Host.Outcome State Fault Refusal :=
  takeRequest p .maskSet b (maskSetRule p b) s
def execConditionTake (p : Port) (b : List Byte) (s : State) : Host.Outcome State Fault Refusal :=
  takeRequest p .conditionTake b (conditionTakeRule p b) s
def execConditionPeek (p : Port) (b : List Byte) (s : State) : Host.Outcome State Fault Refusal :=
  takeRequest p .conditionPeek b (conditionPeekRule p b) s
def execLogRead (p : Port) (b : List Byte) (s : State) : Host.Outcome State Fault Refusal :=
  takeRequest p .logRead b (logReadRule p b) s
def execLogClear (p : Port) (b : List Byte) (s : State) : Host.Outcome State Fault Refusal :=
  takeRequest p .logClear b (logClearRule p b) s

end Sys2Proof.Machine
end

