-- ==== Sys2Proof/Machine/Ops.lean ====
section
/-! DEFINITION. The shared operations of the blocks: line state and duty, the outfeed list, the expected
mark, DONE events, voids, the lane scan, misses, strokes and fire events, the hand-on of a reference,
window expiry, settle, and line-damage causes. Each is one event, or a part of one. -/

namespace Sys2Proof.Machine

/-! ### Line state and brake duty -/

/-- TEN sets D (R133). -/
def State.refreshDuty (s : State) : State := s.setTen { s.ten with duty := s.wantedDuty }

/-- The line enters a state and TEN sets the duty for it (R147, R133). -/
def State.enterLine (s : State) (l : LineState) : State :=
  (s.setLnc { s.lnc with line := l }).refreshDuty

/-! ### Outfeed list and pool -/

/-- R54: the outfeed-full flag follows the list, with its warning or its clearing signal. -/
def State.checkOutfeedFull (s : State) : State :=
  if Config.outfeedEntries ≤ s.map.outfeed.length then
    if s.map.outfeedFull then s
    else (s.setMap { s.map with outfeedFull := true }).reportWarning .outfeedFull s.map.waiting.length
  else if s.map.outfeedFull then
    (s.setMap { s.map with outfeedFull := false }).withdraw .outfeedFull
  else s

/-- A DONE panel at the end of the outfeed list, or of the waiting list while that is full (R52). -/
def State.appendDone (s : State) (q : Panel) : State :=
  if s.map.outfeed.length < Config.outfeedEntries then
    s.setMap { s.map with outfeed := s.map.outfeed ++ [q] }
  else s.setMap { s.map with waiting := s.map.waiting ++ [q] }

/-- A DONE panel joins its list, and the outfeed-full flag is evaluated (R52, R54). -/
def State.joinOutfeed (s : State) (q : Panel) : State := (s.appendDone q).checkOutfeedFull

/-- LPM takes the free panel count (R16). -/
def State.checkPool (s : State) : State :=
  s.setLpm { s.lpm with poolReason := decide (s.freePanels < s.params.g3.poolReserve) }

/-! ### Panels and their entries -/

/-- The panel of a lane sequence that holds a serial. -/
def State.findPanel (s : State) (k : Lane) (serial : Half) : Option Panel :=
  (s.seq k).find? (·.serial == serial)

/-- The state with one panel of a lane sequence changed. -/
def State.updatePanel (s : State) (k : Lane) (serial : Half) (f : Panel → Panel) : State :=
  s.setSeq k ((s.seq k).map fun q => if q.serial = serial then f q else q)

/-- The status of one action of a panel. -/
def State.setAction (s : State) (k : Lane) (serial : Half) (i : Nat) (st : ActionStatus) : State :=
  s.updatePanel k serial fun q =>
    { q with actions := q.actions.modify i fun a => { a with status := st } }

/-- The status of one mark of a panel. -/
def State.setMark (s : State) (k : Lane) (serial : Half) (i : Nat) (st : MarkStatus) : State :=
  s.updatePanel k serial fun q =>
    { q with marks := q.marks.modify i fun m => { m with status := st } }

/-- The entry serves this action. -/
def FireEntry.serves (e : FireEntry) (k : Lane) (serial : Half) (i : Nat) : Bool :=
  e.lane == k && e.serial == serial && e.index == i

/-- The fire list entry of an action, if it has one. -/
def State.findEntry (s : State) (k : Lane) (serial : Half) (i : Nat) : Option FireEntry :=
  s.csc.fireList.find? (·.serves k serial i)

/-- The state without the fire list entry of an action. -/
def State.removeEntry (s : State) (k : Lane) (serial : Half) (i : Nat) : State :=
  s.setFireList (s.csc.fireList.filter fun e => !e.serves k serial i)

/-- The entries of one lane, in fire list order. -/
def State.laneEntries (s : State) (k : Lane) : List FireEntry :=
  s.csc.fireList.filter (·.lane == k)

/-- Entry `e` stands before entry `x`: ascending F against the high-water, and the order of arming for
equal F (R90). -/
def FireEntry.before (highWater : Word) (e x : FireEntry) : Bool :=
  decide (e.f.diff highWater < x.f.diff highWater ∨
    e.f.diff highWater = x.f.diff highWater ∧ e.order < x.order)

/-- An entry put in its place in the order of R90. -/
def insertEntry (highWater : Word) (e : FireEntry) : List FireEntry → List FireEntry
  | [] => [e]
  | x :: xs =>
    if e.before highWater x then e :: x :: xs
    else x :: insertEntry highWater e xs

/-! ### The expected mark -/

/-- A mark of a lane: whose it is and its web coordinate. -/
structure MarkRef where
  serial : Half
  index  : Nat
  w      : Word
deriving DecidableEq, Repr

/-- The PENDING marks of a lane's panels in WEB and CUTTING, in web order (R68). -/
def State.pendingMarks (s : State) (k : Lane) : List MarkRef :=
  ((s.seq k).filter (·.onWeb)).flatMap fun q =>
    (q.marks.zipIdx.filter fun (m, _) => m.status == .pending).map fun (m, i) =>
      { serial := q.serial, index := i, w := q.wLead.plus m.offset }

/-- The reading of the window expiry of a mark predicted at `pred` (R71). -/
def State.expiryAt (s : State) (k : Lane) (pred : Word) : Word :=
  pred.plus ((s.lane k).window + 1 + s.sensorAt k)

/-- The first of these marks whose window expiry still lies ahead becomes the expected mark; the marks
before it pass unobserved (R69). -/
def expectFrom (k : Lane) : List MarkRef → State → State
  | [], s => s.setLane k { s.lane k with expected := none }
  | m :: ms, s =>
    if s.reached (s.expiryAt k (s.predictAt k m.w)) then
      expectFrom k ms (s.setMark k m.serial m.index .missed)
    else
      s.setLane k { s.lane k with expected := some {
        serial := m.serial, index := m.index, w := m.w, pred := s.predictAt k m.w,
        expiry := s.expiryAt k (s.predictAt k m.w) } }

/-- The lane takes its expected mark afresh (R68, R69). -/
def State.takeExpected (s : State) (k : Lane) : State :=
  if (s.lane k).state.expects then expectFrom k (s.pendingMarks k) s
  else s.setLane k { s.lane k with expected := none }

/-- The expected mark is taken afresh where it is no longer the earliest PENDING mark (R68). -/
def State.reviewExpected (s : State) (k : Lane) : State :=
  match (s.lane k).expected, s.pendingMarks k with
  | some x, m :: _ =>
    if x.serial = m.serial ∧ x.index = m.index ∧ (s.lane k).state.expects then s
    else s.takeExpected k
  | _, _ => s.takeExpected k

/-! ### DONE -/

/-- The disposition of a panel at its DONE event (Table 3-5). -/
def Panel.settledDisposition (q : Panel) : Disposition :=
  if !q.anyStroked then .uncut
  else if q.voidCause.isSome then .void
  else match q.quality with
    | .spoiled => .spoiled
    | .good => .good

/-- A panel as its DONE event leaves it: PENDING marks MISSED, the disposition settled (R45, R49). -/
def Panel.finished (q : Panel) : Panel :=
  { q with
    state := .done
    marks := q.marks.map fun m => match m.status with
      | .pending => { m with status := .missed }
      | _ => m
    disposition := some q.settledDisposition }

/-- A lane whose sequence has emptied returns to IDLE (R66). -/
def State.idleLane (s : State) (k : Lane) : State :=
  s.setLane k { s.lane k with state := .idle, missCount := 0, expected := none }

/-- All four lane sequences are empty (R39). -/
def State.lineEmpty (s : State) : Bool := s.inLine.isEmpty

/-- All sequences empty after a DONE event complete a drain (R154). -/
def State.completeDrain (s : State) : State :=
  if s.lineEmpty && s.lnc.line == .drain then s.enterLine .ready else s

/-- The DONE event of a panel (R45): the finished panel leaves its sequence for the outfeed or the
waiting list, and the signals of R39 are made if the sequence has become empty. -/
def State.doneEvent (s : State) (k : Lane) (q : Panel) : State :=
  let s := s.setSeq k ((s.seq k).filter fun x => !(x.serial == q.serial))
  let s := s.joinOutfeed q.finished
  let s := if (s.seq k).isEmpty then s.idleLane k else s.reviewExpected k
  s.completeDrain

/-- A panel is due to be DONE: in WEB or CUTTING, every action resolved, and its predicted tail event
at or behind the high-water (R45). -/
def State.donePanel (s : State) (q : Panel) : Bool :=
  q.onWeb && q.allResolved && s.reached q.tailEvent

/-- The panel becomes DONE if both conditions of R45 hold. -/
def State.checkDone (s : State) (k : Lane) (serial : Half) : State :=
  match s.findPanel k serial with
  | some q => if s.donePanel q then s.doneEvent k q else s
  | none => s

/-! ### Voids and the lane scan -/

/-- Table 3-4. -/
def MissCause.voidCause : MissCause → VoidCause
  | .tooLateToArm | .notRegistered | .knifeBusy | .knifeUnavailable => .missedCut
  | .jog => .jog
  | .lineDamage => .lineDamage
  | .regLost => .regLost

/-- The void causes whose PANEL LOSS record always carries ANCILLARY (R47, Table 3-3). -/
def VoidCause.ancillary : VoidCause → Bool
  | .lineDamage | .regLost => true
  | .splice | .requested | .missedCut | .deviation | .jog => false

/-- The void causes that drop uncommitted PERF actions (R48). -/
def VoidCause.dropsPerfs : VoidCause → Bool
  | .splice | .requested | .lineDamage => true
  | .missedCut | .deviation | .regLost | .jog => false

/-- MAP sets a void cause from none, with its PANEL LOSS record (R46, R47); nothing for a panel that
carries one already. -/
def State.markVoid (s : State) (k : Lane) (serial : Half) (c : VoidCause) (index : Option Nat)
    (position : Word) (ancillary : Bool) : State :=
  match s.findPanel k serial with
  | none => s
  | some q =>
    if q.voidCause.isSome then s
    else
      (s.updatePanel k serial fun x => { x with voidCause := some c }).report
        { newRecord (.panelLoss c) (some k) (some (q.serial, q.tag)) (some position)
            (index.map fun i => (i : Int)) with
          backedUp := !q.anyStroked, ancillary := ancillary }

/-- An action that the lane scan tests, with its web coordinate. -/
structure ActionRef where
  serial : Half
  index  : Nat
  kind   : ActionKind
  w      : Word
deriving DecidableEq, Repr

/-- The PENDING actions of a lane's panels in WEB and CUTTING, in web order (R94). -/
def State.pendingActions (s : State) (k : Lane) : List ActionRef :=
  ((s.seq k).filter (·.onWeb)).flatMap fun q =>
    (q.actions.zipIdx.filter fun (a, _) => a.status == .pending).map fun (a, i) =>
      { serial := q.serial, index := i, kind := a.kind, w := q.wLead.plus a.offset }

/-- A PENDING action misses (R106): it has no entry, and its void cause drops nothing. -/
def State.missPending (s : State) (k : Lane) (a : ActionRef) (c : MissCause) : State :=
  ((s.setAction k a.serial a.index (.missed c)).markVoid k a.serial c.voidCause (some a.index)
    s.mot.l c.voidCause.ancillary).checkDone k a.serial

/-- Arming an action, committed at once when `commit` is set (R97, R98). -/
def State.arm (s : State) (k : Lane) (a : ActionRef) (f : Word) (lead : Nat) (commit : Bool) : State :=
  (s.setCsc {
      fireList := insertEntry s.mot.highWater
        { lane := k, serial := a.serial, index := a.index, kind := a.kind, f := f, heldLead := lead,
          committed := commit, deadline := none, order := s.csc.armings } s.csc.fireList
      armings := s.csc.armings + 1 }).setAction k a.serial a.index
    (if commit then .committed f else .armed f)

/-- The lane scan of a lane in TRACK or COAST over these actions (R95). While the back-off is positive CSC arms
nothing (R109): an action that is not yet missed stays PENDING and the scan stops (assumption 31). -/
def scanArming (k : Lane) : List ActionRef → State → State
  | [], s => s
  | a :: as, s =>
    let lead := s.leadNow k
    let f := s.firePosition k a.w lead
    let d := s.ahead f
    if d ≤ 0 then scanArming k as (s.missPending k a .tooLateToArm)
    else if 0 < s.backOff then s
    else if Config.laneEntries ≤ (s.laneEntries k).length then s
    else if d ≤ Config.commitDistance then scanArming k as (s.arm k a f lead true)
    else if d ≤ Config.armingHorizon then scanArming k as (s.arm k a f lead false)
    else s

/-- The lane scan of a lane in ACQUIRE or LOST over these actions (R96). -/
def scanMissing (k : Lane) (c : MissCause) : List ActionRef → State → State
  | [], s => s
  | a :: as, s =>
    if s.reached (s.firePosition k a.w (s.leadNow k)) then
      scanMissing k c as (s.missPending k a c)
    else s

/-- The lane scan of a lane (R94 to R96). A scan run by another event while the back-off is positive tests
against the high-water too, and arms nothing (R109). -/
def State.laneScan (s : State) (k : Lane) : State :=
  match (s.lane k).state with
  | .track | .coast => scanArming k (s.pendingActions k) s
  | .acquire => scanMissing k .notRegistered (s.pendingActions k) s
  | .lost => scanMissing k .regLost (s.pendingActions k) s
  | .idle => s

/-- A panel as the dropping of its uncommitted PERF actions leaves it (R48). -/
def Panel.perfsDropped (q : Panel) : Panel :=
  { q with actions := q.actions.map fun a =>
      match a.kind, a.status with
      | .perf, .pending | .perf, .armed _ => { a with status := .dropped }
      | _, _ => a }

/-- An uncommitted PERF entry of a panel. -/
def FireEntry.droppable (e : FireEntry) (k : Lane) (serial : Half) : Bool :=
  e.lane == k && e.serial == serial && e.kind == .perf && !e.committed

/-- MAP drops a panel's uncommitted PERF actions and CSC removes their entries; the departure of an
entry runs the lane scan, and the panel may become DONE (R48, R107). -/
def State.dropPerfs (s : State) (k : Lane) (serial : Half) : State :=
  let departs := s.csc.fireList.any (·.droppable k serial)
  let s := s.updatePanel k serial Panel.perfsDropped
  let s := s.setFireList (s.csc.fireList.filter fun e => !e.droppable k serial)
  let s := s.checkDone k serial
  if departs then s.laneScan k else s

/-- A block reports a void for a panel of lane `k` (R46 to R48). -/
def State.voidPanel (s : State) (k : Lane) (serial : Half) (c : VoidCause) (index : Option Nat)
    (position : Word) (ancillary : Bool) : State :=
  match s.findPanel k serial with
  | none => s
  | some q =>
    if q.voidCause.isSome then s
    else
      let s := s.markVoid k serial c index position ancillary
      if c.dropsPerfs then s.dropPerfs k serial else s

/-! ### Misses, strokes and fire events -/

/-- CSC sets an action that has an entry MISSED (R106). -/
def State.missAction (s : State) (k : Lane) (serial : Half) (i : Nat) (c : MissCause) : State :=
  ((((s.setAction k serial i (.missed c)).removeEntry k serial i).voidPanel k serial c.voidCause
    (some i) s.mot.l c.voidCause.ancillary).checkDone k serial).laneScan k

/-- A knife controller as a stroke's begin leaves it (R112). -/
def Knife.begin (n : Knife) (timeoutMs : Nat) (e : FireEntry) : Knife :=
  { n with
    state := .stroke { phase := if n.home then .leaving else .away, timer := 0,
                       timeoutMs := timeoutMs, kind := e.kind, serial := e.serial,
                       index := e.index }
    fire := true, firePulseMs := 0, depthHigh := e.kind == .cut }

/-- The first stroke of a panel takes it from WEB to CUTTING (R44). -/
def Panel.cut (q : Panel) : Panel := { q with state := if q.state = .web then .cutting else q.state }

/-- CSC hands the knife the stroke of an entry: FIRED, or LATE with its CUT LATE record (R102, R104,
R105). -/
def State.strike (s : State) (k : Lane) (e : FireEntry) (late : Bool) : State :=
  let tag := ((s.findPanel k e.serial).map (·.tag)).getD 0
  let s := s.setKnife k ((s.knife k).begin s.params.g4.strokeTimeout e)
  let s := s.setAction k e.serial e.index (if late then .late else .fired)
  let s := s.removeEntry k e.serial e.index
  let s := s.updatePanel k e.serial Panel.cut
  let s := if late then
      s.reportRecovery k (newRecord (.recovery .cutLate) (some k) (some (e.serial, tag))
        (some s.mot.l) (some (s.mot.l.diff e.f)))
    else s
  (s.checkDone k e.serial).laneScan k

/-- An entry of lane `k` waits for the knife (R103). -/
def State.waiter (s : State) (k : Lane) : Option FireEntry :=
  s.csc.fireList.find? fun e => e.lane == k && e.deadline.isSome

/-- The state with one fire list entry changed in its place. -/
def State.updateEntry (s : State) (k : Lane) (serial : Half) (i : Nat) (f : FireEntry → FireEntry) :
    State :=
  s.setFireList (s.csc.fireList.map fun e => if e.serves k serial i then f e else e)

/-- The deadline of an entry that begins to wait (R103). -/
def State.deadlineOf (s : State) (e : FireEntry) : Word := e.f.plus (s.params.g4.cutTolerance + 1)

/-- The fire event finds the knife in STROKE: the entry waits, or misses behind a waiter (R103). A
deadline that already lies at or behind the high-water has passed, and ends the wait within the event
(R7; assumption 30). -/
def State.await (s : State) (k : Lane) (e : FireEntry) : State :=
  match s.waiter k with
  | some _ => s.missAction k e.serial e.index .knifeBusy
  | none =>
    if s.reached (s.deadlineOf e) then s.missAction k e.serial e.index .knifeBusy
    else s.updateEntry k e.serial e.index fun x => { x with deadline := some (s.deadlineOf e) }

/-- The fire event of an entry (Table 5-3). -/
def State.fire (s : State) (k : Lane) (e : FireEntry) : State :=
  match s.lnc.line with
  | .ready | .offline => s.missAction k e.serial e.index .jog
  | .halted => s.missAction k e.serial e.index .lineDamage
  | .run | .drain =>
    match (s.knife k).state with
    | .fault | .disabled => s.missAction k e.serial e.index .knifeUnavailable
    | .stroke _ => s.await k e
    | .ready => s.strike k e false

/-- CSC settles the waiting entry of lane `k`, if any, at a stroke end (R104). -/
def State.settleWaiter (s : State) (k : Lane) : State :=
  match s.waiter k with
  | none => s
  | some e =>
    match s.lnc.line with
    | .ready | .offline => s.missAction k e.serial e.index .jog
    | .halted => s.missAction k e.serial e.index .lineDamage
    | .run | .drain =>
      match (s.knife k).state with
      | .ready => s.strike k e true
      | .fault | .disabled | .stroke _ => s.missAction k e.serial e.index .knifeUnavailable

/-- An entry and its action become COMMITTED (R98). -/
def State.commitEntry (s : State) (k : Lane) (serial : Half) (i : Nat) (f : Word) : State :=
  (s.updateEntry k serial i fun x => { x with committed := true }).setAction k serial i
    (.committed f)

/-! ### The hand-on of a reference (R65) -/

/-- A panel with the predictions of R42 on its lane's reference and scale. -/
def State.repredict (s : State) (k : Lane) (q : Panel) : Panel :=
  { q with
    leadReading := s.predictAt k q.wLead
    tailEvent := (s.predictAt k (q.wLead.plus q.length)).plus (s.knifeAt k) }

/-- A LOOP panel whose lead lies at or behind the high-water enters WEB (R43). -/
def State.enterWeb (s : State) (q : Panel) : Panel :=
  if q.state = .loop ∧ s.reached q.leadReading then { q with state := .web } else q

/-- The panels of these serials that are due become DONE, in this order: at one recomputation that of the
lane sequence (assumption 28). -/
def checkDoneAll (k : Lane) : List Half → State → State
  | [], s => s
  | n :: ns, s => checkDoneAll k ns (s.checkDone k n)

/-- MAP recomputes the lane's predictions (R42, R43, R45). -/
def State.recomputePanels (s : State) (k : Lane) : State :=
  let s := s.setSeq k ((s.seq k).map fun q => s.enterWeb (s.repredict k q))
  checkDoneAll k ((s.seq k).map (·.serial)) s

/-- The web coordinate of an entry's action. -/
def State.entryPoint (s : State) (k : Lane) (e : FireEntry) : Option Word :=
  match s.findPanel k e.serial with
  | none => none
  | some q => (q.actions[e.index]?).map fun a => q.wLead.plus a.offset

/-- CSC recomputes one ARMED entry (R99): it moves to its new F, is committed within 300 counts of the
high-water, and its fire event is taken when the new F lies at or behind it. -/
def State.recomputeEntry (s : State) (k : Lane) (e : FireEntry) : State :=
  match s.entryPoint k e with
  | some w =>
    let f := s.firePosition k w e.heldLead
    let s := s.removeEntry k e.serial e.index
    let s := s.setFireList (insertEntry s.mot.highWater { e with f := f } s.csc.fireList)
    let s := s.setAction k e.serial e.index (.armed f)
    if s.ahead f ≤ Config.commitDistance then
      let s := s.commitEntry k e.serial e.index f
      if s.reached f then s.fire k { e with f := f, committed := true } else s
    else s
  | none => s

/-- CSC assesses one COMMITTED entry against the new reference (R100). -/
def State.assessEntry (s : State) (k : Lane) (e : FireEntry) : State :=
  match s.findPanel k e.serial, s.entryPoint k e with
  | some q, some w =>
    let dev := (s.firePosition k w e.heldLead).diff e.f
    let s := if s.params.g4.cutTolerance < dev.natAbs then
        s.reportRecovery k (newRecord (.recovery .cutDeviation) (some k) (some (q.serial, q.tag))
          (some s.mot.l) (some dev))
      else s
    if s.params.g4.deviationLimit < dev.natAbs then
      s.voidPanel k e.serial .deviation (some e.index) s.mot.l false
    else s
  | _, _ => s

/-- CSC revises the entry of an action, as it now stands, against the new reference: it recomputes an
ARMED entry and assesses a COMMITTED one (R99, R100). -/
def State.reviseEntry (s : State) (k : Lane) (serial : Half) (i : Nat) : State :=
  match s.findEntry k serial i with
  | none => s
  | some e => if e.committed then s.assessEntry k e else s.recomputeEntry k e

/-- CSC revises the entries of these actions, in order. -/
def reviseAll (k : Lane) : List FireEntry → State → State
  | [], s => s
  | e :: es, s => reviseAll k es (s.reviseEntry k e.serial e.index)

/-- The hand-on of a new reference pair and scale (R65): MAP, then CSC's entries of the lane, ARMED and
COMMITTED alike, in fire list order (example 5.7; assumption 29), then the expected mark, then the lane
scan. -/
def State.handOn (s : State) (k : Lane) : State :=
  let s := s.recomputePanels k
  let s := reviseAll k (s.laneEntries k) s
  (s.takeExpected k).laneScan k

/-! ### Window expiry and settle -/

/-- The lane loads its copy of G1 (R63). -/
def State.loadCopy (s : State) (k : Lane) : State :=
  s.setLane k { s.lane k with g1 := s.params.g1 }

/-- CSC sets these ARMED entries' actions MISSED with cause REG LOST (R85, R107). -/
def missLost (k : Lane) : List FireEntry → State → State
  | [], s => s
  | e :: es, s => missLost k es (s.missAction k e.serial e.index .regLost)

/-- The lane enters LOST at the miss of mark `x` (R85). -/
def State.loseLane (s : State) (k : Lane) (x : Expected) : State :=
  let tag := ((s.findPanel k x.serial).map (·.tag)).getD 0
  let s := s.setLane k { s.lane k with state := .lost, expected := none }
  let s := s.reportLaneDamage (newRecord (.laneDamage .regLost) (some k) (some (x.serial, tag))
    (some s.mot.l) (some (s.lane k).missCount))
  (missLost k ((s.laneEntries k).filter fun e => !e.committed) s).laneScan k

/-- What a window expiry makes of the lane, whose copy is loaded and whose mark is MISSED: the miss
count it takes and whether the lane is lost (R79, R80, R81). -/
def LaneRec.afterMiss (r : LaneRec) (w : Word) : Nat × Bool :=
  match r.state with
  | .acquire => (r.missCount + 1, decide (r.g1.coastLimit ≤ r.missCount + 1))
  | .track => (1, decide (r.g1.coastLimit ≤ 1))
  | .coast | .idle | .lost => (r.missCount + 1,
      decide (r.g1.coastLimit ≤ r.missCount + 1) ||
        decide ((r.g1.coastDistance : Int) < w.diff r.wref))

/-- The window expiry of the expected mark of a lane (R79 to R81). A lane whose state changes is scanned
(R94). -/
def State.expire (s : State) (k : Lane) : State :=
  match (s.lane k).expected with
  | none => s
  | some x =>
    let s := (s.loadCopy k).setMark k x.serial x.index .missed
    let r := s.lane k
    let (n, lost) := r.afterMiss x.w
    if lost then (s.setLane k { r with missCount := n }).loseLane k x
    else
      match r.state with
      | .track => ((s.setLane k { r with missCount := n, state := .coast }).takeExpected k).laneScan k
      | .idle | .acquire | .coast | .lost => (s.setLane k { r with missCount := n }).takeExpected k

/-- The window changed: the expiry of the expected mark moves, and is taken at the move when it now lies
at or behind the high-water (R71). -/
def State.moveExpiry (s : State) (k : Lane) : State :=
  match (s.lane k).expected with
  | none => s
  | some x =>
    let e := s.expiryAt k x.pred
    if e = x.expiry then s
    else
      let s := s.setLane k { s.lane k with expected := some { x with expiry := e } }
      if s.reached e then s.expire k else s

/-- Settle starts on one lane at its settle distance; a distance of 0 ends it (R83). -/
def State.startSettle (s : State) (k : Lane) : State :=
  let r := s.lane k
  (s.setLane k { r with settleRemaining := r.g1.settleDistance,
                        settling := decide (0 < r.g1.settleDistance) }).moveExpiry k

/-- The tension-change signal: settle starts on every lane (R83, R138). -/
def State.tensionChange (s : State) : State :=
  (((s.startSettle .l0).startSettle .l1).startSettle .l2).startSettle .l3

/-! ### Line-damage causes -/

/-- A LINE DAMAGE record of these causes, the first its own and the others secondary (R156). -/
def State.haltRecord (s : State) (c : LineCause) (more : List LineCause) : Record :=
  { newRecord (.lineDamage c) none none (some s.mot.l) (some (s.causeDetail c)) with
    secondary := more }

/-- The LINE DAMAGE records of causes that one event makes active: the first holds up to three others,
and each further cause has a record of its own (R156). -/
def reportHalts (from_ : LineState) : List LineCause → State → State
  | [], s => s
  | c :: cs, s => reportHalts from_ cs (s.reportLineDamage (s.haltRecord c []) from_)

/-- The line enters HALTED with these causes, in the order of Table 8-3 (R155, R156). -/
def State.halt (s : State) : List LineCause → State
  | [] => s
  | c :: cs =>
    let line := s.lnc.line
    let s := (s.setLnc { s.lnc with haltCause := some c }).enterLine .halted
    let s := s.reportLineDamage (s.haltRecord c (cs.take Config.secondaryCauses)) line
    reportHalts line (cs.drop Config.secondaryCauses) s

/-- The open record, if any (R156). -/
def State.openRecord (s : State) : Option Record := s.cnd.queue.find? (·.isOpen)

/-- A further cause while the line is HALTED (R157). -/
def State.furtherCause (s : State) (c : LineCause) : State :=
  match s.openRecord with
  | some r =>
    if r.cause = .lineDamage c ∨ c ∈ r.secondary then s
    else if r.secondary.length < Config.secondaryCauses then
      s.setQueue (s.cnd.queue.map fun x =>
        if x.isOpen then { x with secondary := x.secondary ++ [c] } else x)
    else s.reportLineDamage (s.haltRecord c []) .halted
  | none => s.reportLineDamage (s.haltRecord c []) .halted

/-- A standing condition has come to hold: a cause in RUN and DRAIN, a further cause in HALTED but for
REVERSE LIMIT, nothing in READY and OFFLINE (R155, R157). -/
def State.causeHolds (s : State) (c : LineCause) : State :=
  match s.lnc.line with
  | .run | .drain => s.halt [c]
  | .halted => if c = .reverseLimit then s else s.furtherCause c
  | .ready | .offline => s

/-- The index distance is compared with the timeout at an entry to RUN or DRAIN: an excess is presented
there, and its event has been taken (R134; assumption 8). -/
def State.compareIndex (s : State) : State :=
  s.setTen { s.ten with breakWatch := if s.standing .filmBreak then .held else .clear }

/-- The line enters RUN or DRAIN, and every cause whose standing condition holds is presented (R151). -/
def State.enterRunning (s : State) (l : LineState) : State :=
  let s := (s.enterLine l).compareIndex
  s.halt s.standingCauses

end Sys2Proof.Machine
end

