-- ==== Sys2Proof/Machine/Knives.lean ====
section
/-! DEFINITION. The knife controllers: wear attributes and their thresholds (R120 to R124), stroke ends
(R113, R114), and the commands of their lines and timers. -/

namespace Sys2Proof.Machine

/-- The test of STROKE LIFE after a recompute (R123): worst follows, and a first fall sets the latch, is
reported, and sets the pre-fail status where the flag says pre-failure. -/
def State.testLife (s : State) (k : Lane) : State :=
  let n := s.knife k
  let n := { n with lifeWorst := min n.lifeWorst n.lifeN }
  if n.lifeN ≤ s.params.g4.lifeThreshold.get k ∧ n.lifeLatch = false then
    (s.setKnife k { n with
        lifeLatch := true
        preFail := n.preFail || s.params.g4.lifePreFailure.get k }).report
      (newRecord (.degradation .knifeWear) (some k) none (some s.mot.l) (some (1000 + n.lifeN)))
  else s.setKnife k n

/-- The test of STROKE TIME after a recompute (R123). -/
def State.testTime (s : State) (k : Lane) : State :=
  let n := s.knife k
  let n := { n with timeWorst := min n.timeWorst n.timeN }
  if n.timeN ≤ s.params.g4.timeThreshold.get k ∧ n.timeLatch = false then
    (s.setKnife k { n with
        timeLatch := true
        preFail := n.preFail || s.params.g4.timePreFailure.get k }).report
      (newRecord (.degradation .knifeWear) (some k) none (some s.mot.l) (some (2000 + n.timeN)))
  else s.setKnife k n

/-- STROKE LIFE at a stroke end: one stroke more, recomputed and tested (R121). -/
def State.countStroke (s : State) (k : Lane) : State :=
  let n := s.knife k
  let c := satSucc Config.max24 n.strokes
  (s.setKnife k { n with strokes := c, lifeN := lifeN s.params.g4.ratedLife c }).testLife k

/-- STROKE TIME at a home return of duration `d`, recomputed and tested (R122). -/
def State.timeStroke (s : State) (k : Lane) (d : Nat) : State :=
  let n := s.knife k
  let m := movedMean n.mean d
  (s.setKnife k { n with lastDuration := some d, mean := m,
                         timeN := timeN s.params.g4.nominalStrokeTime m }).testTime k

/-- The home return that ends a stroke (R113): READY, or DISABLED with a disable pending, then the
attributes, then the report to the cut scheduler. -/
def State.endStroke (s : State) (k : Lane) (d : Nat) : State :=
  let n := s.knife k
  let s := s.setKnife k { n with
    state := if n.disablePending then .disabled else .ready
    disablePending := false, fire := false }
  ((s.countStroke k).timeStroke k d).settleWaiter k

/-- The serial and tag of a resident panel (R114). -/
def State.residentPanel (s : State) (k : Lane) (serial : Half) : Option (Half × Half) :=
  ((s.residentsOf k).find? (·.serial == serial)).map fun q => (q.serial, q.tag)

/-- The timeout of a stroke in flight (R114). -/
def State.timeoutStroke (s : State) (k : Lane) (r : Stroke) : State :=
  let n := s.knife k
  let s := s.setKnife k { n with state := .fault, fire := false, disablePending := false }
  let s := (s.countStroke k).settleWaiter k
  s.reportLaneDamage (newRecord (.laneDamage .knifeTimeout) (some k)
    (s.residentPanel k r.serial) (some s.mot.l) (some r.timeoutMs))

/-- The timeout event of knife `k`: nothing outside STROKE (R115). -/
def State.strokeTimeout (s : State) (k : Lane) : State :=
  match (s.knife k).state with
  | .stroke r => s.timeoutStroke k r
  | .ready | .fault | .disabled => s

/-- The level of KNIFE_HOMEk. -/
def State.setHome (s : State) (k : Lane) (active : Bool) : State :=
  s.setKnife k { s.knife k with home := active }

/-- The home input going inactive: in phase LEAVING the stroke moves to AWAY (R113, R115). -/
def State.homeLeave (s : State) (k : Lane) : State :=
  let n := s.knife k
  if n.home then
    match n.state with
    | .stroke r => s.setKnife k { n with home := false, state := .stroke { r with phase := .away } }
    | .ready | .fault | .disabled => s.setHome k false
  else s

/-- The home input going active with the stroke timer at `d`: in phase AWAY the stroke ends, unless the
timer had passed the held timeout, which is then taken first (R113 to R115, assumption 17). -/
def State.homeReturn (s : State) (k : Lane) (d : Nat) : State :=
  let n := s.knife k
  if n.home then s
  else
    match n.state with
    | .stroke r =>
      if r.phase = .away then
        if r.timeoutMs * 100 < d then (s.timeoutStroke k r).setHome k true
        else (s.setHome k true).endStroke k d
      else s.setHome k true
    | .ready | .fault | .disabled => s.setHome k true

/-- KNIFE_FIREk is released at the end of its pulse (R112). -/
def State.endPulse (s : State) (k : Lane) : State := s.setKnife k { s.knife k with fire := false }

end Sys2Proof.Machine
end

