-- ==== Sys2Proof/Machine/Registration.lean ====
section
/-! DEFINITION. The registration unit: mark edges (R72 to R78), entry to ACQUIRE (R33, R87, R88), the end
of settle (R84), and the commands on a lane. -/

namespace Sys2Proof.Machine

/-- A stray or late edge (R74). -/
def State.stray (s : State) (k : Lane) : State :=
  let r := s.lane k
  let n := r.strayCount + 1
  let s := s.setLane k { r with strayCount := n }
  if n.toNat % 16 = 0 then
    s.reportRecovery k (newRecord (.recovery .strayMarks) (some k) none (some s.mot.l)
      (some n.toNat))
  else s

/-- The scale measurement of an acceptance at `obs` for a mark at `w`, when the span is long enough
(R76): the unclamped measured scale. -/
def LaneRec.measure (r : LaneRec) (w obs : Word) : Option Nat :=
  let span := w.diff r.wref
  if (r.g1.minimumSpan : Int) ≤ span then some (measuredScale (obs.diff r.lref) span.toNat) else none

/-- The lane record that an acceptance leaves, before its recovery counting (R75 to R78). -/
def LaneRec.accept (r : LaneRec) (w obs : Word) : LaneRec :=
  { r with
    wref := w, lref := obs, missCount := 0, state := .track
    scale := match r.state with
      | .acquire => r.scale
      | .idle | .track | .coast | .lost =>
        match r.measure w obs with
        | some m => steppedScale r.scale (clampScale m) r.updateGain
        | none => r.scale }

/-- The records an acceptance makes, in the order of R78, each RECOVERY report counted (R89): the
DEGRADATION records follow them. -/
def State.acceptReports (s : State) (k : Lane) (panel : Half × Half) (old : LaneRec) (w obs : Word) :
    State :=
  let stretch : Option Nat :=
    match old.state with
    | .acquire => none
    | .idle | .track | .coast | .lost =>
      match old.measure w obs with
      | some m => if clampScale m = m then none else some (min 2147483647 m)
      | none => none
  let coasted := old.state = .coast
  let s := match stretch with
    | some m => s.report (newRecord (.recovery .stretchLimit) (some k) (some panel)
        (some s.mot.l) (some m))
    | none => s
  let s := if coasted then s.report (newRecord (.recovery .markReacquired) (some k) (some panel)
      (some s.mot.l) (some old.missCount)) else s
  let s := if stretch.isSome then s.countRecovery k else s
  if coasted then s.countRecovery k else s

/-- An accepted edge (R75 to R78). -/
def State.accept (s : State) (k : Lane) (x : Expected) (obs : Word) : State :=
  let old := s.lane k
  let tag := ((s.findPanel k x.serial).map (·.tag)).getD 0
  let s := s.setLane k (old.accept x.w obs)
  let s := s.acceptReports k (x.serial, tag) old x.w obs
  let s := s.setMark k x.serial x.index (.accepted (obs.diff x.pred))
  s.handOn k

/-- A mark edge is judged against the expected mark and the window (R73). -/
def State.judgeEdge (s : State) (k : Lane) : State :=
  let obs := s.mot.l.shift (-(s.sensorAt k : Int))
  match (s.lane k).expected with
  | none => s.stray k
  | some x =>
    if (obs.diff x.pred).natAbs ≤ (s.lane k).window then s.accept k x obs else s.stray k

/-- A rising edge on MARKk (R72): taken for a present lane, direction FORWARD, at high-water. -/
def State.markEdge (s : State) (k : Lane) : State :=
  if s.params.isPresent k && s.mot.direction == .forward && s.atHighWater then
    ((s.loadCopy k).moveExpiry k).judgeEdge k
  else s

/-- A lane takes the loop reference with the nominal scale of its freshly loaded copy and enters ACQUIRE
(R33, R63, R87). -/
def State.enterAcquire (s : State) (k : Lane) : State :=
  let s := s.loadCopy k
  let r := s.lane k
  s.setLane k { r with
    state := .acquire, wref := s.mot.p.shift (-(s.lpm.lp : Int)), lref := s.mot.l,
    scale := r.g1.nominalScale, missCount := 0 }

/-- A panel with its ARMED actions PENDING again (R88). -/
def Panel.disarmed (q : Panel) : Panel :=
  { q with actions := q.actions.map fun a =>
      match a.status with
      | .armed _ => { a with status := .pending }
      | _ => a }

/-- CSC removes a lane's ARMED entries and their actions return to PENDING (R88, R107). -/
def State.disarmLane (s : State) (k : Lane) : State :=
  (s.setSeq k ((s.seq k).map Panel.disarmed)).setFireList
    (s.csc.fireList.filter fun e => !(e.lane == k && !e.committed))

/-- LANE REACQUIRE of a lane in COAST or LOST (R87, R88): the expected mark is taken afresh. -/
def State.reacquire (s : State) (k : Lane) : State :=
  ((s.enterAcquire k).disarmLane k).handOn k

/-- The end of settle on a lane (R84): the window narrows and the gain returns. -/
def State.finishSettle (s : State) (k : Lane) : State :=
  (s.setLane k { s.lane k with settling := false }).moveExpiry k

/-- Settle remaining falls by one at a line advance, down to 0 (R83). -/
def LaneRec.settleStep (r : LaneRec) : LaneRec := { r with settleRemaining := r.settleRemaining - 1 }

end Sys2Proof.Machine
end

