-- ==== Sys2Proof/Machine/Tension.lean ====
section
/-! DEFINITION. The tension unit: profile switches, the splice list, index pulses and film supervision
(R130 to R145). -/

namespace Sys2Proof.Machine

/-- The active profile switches, with D recomputed and the tension-change signal (R137). -/
def State.switchProfile (s : State) (p : Profile) : State :=
  (s.setTen { s.ten with profile := p }).refreshDuty.tensionChange

/-- The greatest knife distance among the present lanes, or among all four when none is present
(Table 7-3). -/
def Params.largestKnife (ps : Params) : Nat :=
  let of (ks : List Lane) : Nat := (ks.map ps.g0.knifeDistance.get).foldl max 0
  match lanes.filter ps.isPresent with
  | [] => of lanes
  | ks => of ks

/-- A splice record at a nip reading (Table 7-3). -/
def Params.spliceAt (ps : Params) (kind : SpliceKind) (nip : Word) (passed : Bool) : Splice :=
  let h := ps.g0.spliceHalfLength
  { kind := kind, nip := nip, lower := nip.shift (-(h : Int)), upper := nip.plus h,
    retire := nip.plus (h + ps.largestKnife), passed := passed,
    passage := if passed then .entry else .ahead }

/-- The record joins the list, with the profile switch if the list was empty (R137, R139). -/
def State.enterSplice (s : State) (x : Splice) : State :=
  let s' := s.setTen { s.ten with splices := s.ten.splices ++ [x] }
  if s.ten.splices.isEmpty then s'.switchProfile .splice else s'

/-- A panel's predicted span overlaps the splice region (R142). -/
def State.overlaps (s : State) (x : Splice) (k : Lane) (q : Panel) : Bool :=
  decide (q.leadReading.diff x.upper ≤ 0) &&
    decide (0 ≤ (q.tailEvent.shift (-(s.knifeAt k : Int))).diff x.lower)

/-- Panels overlapping the splice, in lane order and web order, with no void cause yet (R142). -/
def State.overlapped (s : State) (x : Splice) : List (Lane × Half) :=
  lanes.flatMap fun k => ((s.seq k).filter fun q => s.overlaps x k q && q.voidCause.isNone).map
    fun q => (k, q.serial)

/-- TEN voids these panels; the first is the primary report, the others carry ANCILLARY (R142). -/
def voidSpliced (position : Word) (ancillary : Bool) : List (Lane × Half) → State → State
  | [], s => s
  | (k, n) :: rest, s => voidSpliced position true rest (s.voidPanel k n .splice none position ancillary)

/-- The first record of a list that satisfies `p` is changed. -/
def updateFirst {α : Type} (p : α → Bool) (f : α → α) : List α → List α
  | [] => []
  | x :: xs => if p x then f x :: xs else x :: updateFirst p f xs

/-- A WEB splice whose passage event is due: still to be delivered, its nip reading at or behind the
high-water (R143). -/
def State.passageDue (s : State) (x : Splice) : Bool := x.passage == .ahead && s.reached x.nip

/-- A splice whose retirement is due (R144). -/
def State.retireDue (s : State) (x : Splice) : Bool := s.reached x.retire

/-- A record as the delivery of its passage event leaves it (R143). -/
def Splice.pass (x : Splice) : Splice := { x with passed := true, passage := .delivered }

/-- A record as the lowering of the high-water from reading `x` leaves it: a passage event delivered at
that reading is delivered there a second time (R6; assumption 35). -/
def Splice.lowered (highWater : Word) (x : Splice) : Splice :=
  if x.passage = .delivered ∧ x.nip = highWater then { x with passage := .ahead } else x

/-- The passage of the first splice that is due: passed, with the tension-change signal (R143). -/
def State.passSplice (s : State) : State :=
  if s.ten.splices.any s.passageDue then
    (s.setTen { s.ten with
      splices := updateFirst s.passageDue Splice.pass s.ten.splices
      }).tensionChange
  else s

/-- The retirement of the first splice that is due; an emptied list switches the profile (R144). -/
def State.retireSplice (s : State) : State :=
  if s.ten.splices.any s.retireDue then
    let s := s.setTen { s.ten with splices := s.ten.splices.eraseP s.retireDue }
    if s.ten.splices.isEmpty then s.switchProfile .normal else s
  else s

/-- A record just entered whose retire reading lies at or behind the high-water retires within its entry
(R144). -/
def State.retireEntered (s : State) (x : Splice) : State :=
  if s.retireDue x then
    let s := s.setTen { s.ten with splices := s.ten.splices.dropLast }
    if s.ten.splices.isEmpty then s.switchProfile .normal else s
  else s

/-- The event at which the index distance has come to exceed the timeout (R134). -/
def State.breakFilm (s : State) : State :=
  if s.ten.breakWatch = .due then
    (s.setTen { s.ten with breakWatch := .held }).causeHolds .filmBreak
  else s

/-- The film-low flag is cleared with its clearing signal, if it was set (R136). -/
def State.clearFilmLow (s : State) : State :=
  if s.ten.filmLow then (s.setTen { s.ten with filmLow := false }).withdraw .filmLow else s

/-- The entry of a FILM splice at L_now, in the order of R140; it retires within the entry where its
retire reading is already reached (R144). -/
def State.filmSplice (s : State) : State :=
  let x := s.params.spliceAt .film s.mot.l true
  let s := (s.enterSplice x).tensionChange
  let s := voidSpliced x.nip false (s.overlapped x) s
  let s := s.setTen { s.ten with measured := false, c := none, indexDistance := 0,
                                 breakWatch := .clear, filmEnd := false }
  s.clearFilmLow.refreshDuty.retireEntered x

/-- The reference a WEB splice is predicted from (R141): lane 0 when it is not IDLE, else the lowest
present lane that is not IDLE, else the loop reference at the nominal scale of G1. -/
def State.webReading (s : State) (w : Word) : Word :=
  match [Lane.l0, .l1, .l2, .l3].find? (fun k =>
      (k == .l0 || s.params.isPresent k) && !((s.lane k).state == .idle)) with
  | some k => s.predictAt k w
  | none => predict (s.mot.p.shift (-(s.lpm.lp : Int))) s.mot.l s.params.g1.nominalScale w

/-- The entry of a WEB splice (R141): its passage and its retirement are within the entry when their
readings are already reached (R143, R144). -/
def State.webSplice (s : State) (x : Splice) : State :=
  let s := s.enterSplice x
  let s := voidSpliced x.nip false (s.overlapped x) s
  let s := if x.passed then s.tensionChange else s
  s.retireEntered x

/-- The film-end test of an index pulse that measures `c` (R135). -/
def State.testFilmEnd (s : State) (c : Nat) : State :=
  if c < s.params.g2.cCore then
    if s.ten.filmEnd then s else (s.setTen { s.ten with filmEnd := true }).causeHolds .filmEnd
  else s.setTen { s.ten with filmEnd := false }

/-- The film-low test of an index pulse that measures `c` (R136). -/
def State.testFilmLow (s : State) (c : Nat) : State :=
  if c < s.params.g2.filmLowC then
    if s.ten.filmLow then s
    else (s.setTen { s.ten with filmLow := true }).reportWarning .filmLow c
  else s.clearFilmLow

/-- An index pulse that TEN takes (R131): unmeasured, it synchronises; measured, it takes C, tests the
film and recomputes D. -/
def State.takePulse (s : State) : State :=
  if s.ten.measured then
    let c := s.ten.indexDistance
    let s := s.setTen { s.ten with c := some c, indexDistance := 0, breakWatch := .clear }
    ((s.testFilmEnd c).testFilmLow c).refreshDuty
  else s.setTen { s.ten with measured := true, indexDistance := 0, breakWatch := .clear }

/-- A rising edge on UNWIND_IDX: a pulse at high-water with direction FORWARD (R130). A FILM BREAK still
due at the last line advance comes first (R146, assumption 34). -/
def State.indexEdge (s : State) : State :=
  if s.atHighWater && s.mot.direction == .forward then s.breakFilm.takePulse else s

/-- One line advance at TEN: the index distance rises, and is compared with the timeout (R130, R134). In
RUN and DRAIN every excess is an event; outside them one whose event has been taken is none (R157). -/
def State.countIndex (s : State) : State :=
  let n := satSucc Config.max24 s.ten.indexDistance
  s.setTen { s.ten with
    indexDistance := n
    breakWatch :=
      if s.params.g2.indexTimeout < n then
        if s.ten.breakWatch = .held ∧ s.lnc.line.running = false then .held else .due
      else .clear }

end Sys2Proof.Machine
end

