-- ==== Sys2Proof/Machine/Due.lean ====
section
/-! DEFINITION. Position events and timer events that are due (R7, assumptions 3 and 4): which of them
are, the taking of one, and the taking of all that are still due. A command that names an event which
is not due finds nothing to deliver. -/

namespace Sys2Proof.Machine

/-- The LOOP panel whose lead event is due (R43). -/
def State.dueLead (s : State) (k : Lane) : Option Panel :=
  (s.seq k).find? fun q => q.state == .loop && s.reached q.leadReading

/-- The panel whose tail event makes it DONE (R45). -/
def State.dueTail (s : State) (k : Lane) : Option Panel := (s.seq k).find? s.donePanel

/-- The ARMED entry whose commit is due, at F − 300 (R98). -/
def State.dueCommit (s : State) (k : Lane) : Option FireEntry :=
  (s.laneEntries k).find? fun e =>
    !e.committed && s.reached (e.f.shift (-(Config.commitDistance : Int)))

/-- The entry whose fire event is due, the first in fire list order; a waiting entry's fire event has
been taken (R101, R103). -/
def State.dueFire (s : State) (k : Lane) : Option FireEntry :=
  (s.laneEntries k).find? fun e => e.deadline.isNone && s.reached e.f

/-- The waiting entry whose deadline is due (R104); the deadlines lie ahead when they are placed
(assumption 30). -/
def State.dueDeadline (s : State) (k : Lane) : Option FireEntry :=
  (s.laneEntries k).find? fun e => match e.deadline with
    | some d => s.reached d
    | none => false

/-- The window expiry of the lane's expected mark is due (R71). -/
def State.dueExpiry (s : State) (k : Lane) : Bool :=
  match (s.lane k).expected with
  | some x => s.reached x.expiry
  | none => false

/-- The end of settle is due: settle remaining has reached 0 and settle is still in force (R84). -/
def State.dueSettle (s : State) (k : Lane) : Bool :=
  (s.lane k).settling && (s.lane k).settleRemaining == 0

/-- LEAD_EVENT (R43): the panel enters WEB; its marks and actions become candidates. -/
def State.takeLead (s : State) (k : Lane) : State :=
  match s.dueLead k with
  | some q =>
    ((s.updatePanel k q.serial fun x => { x with state := .web }).reviewExpected k).laneScan k
  | none => s

/-- TAIL_EVENT (R45). -/
def State.takeTail (s : State) (k : Lane) : State :=
  match s.dueTail k with
  | some q => s.doneEvent k q
  | none => s

/-- COMMIT (R98). -/
def State.takeCommit (s : State) (k : Lane) : State :=
  match s.dueCommit k with
  | some e => s.commitEntry k e.serial e.index e.f
  | none => s

/-- FIRE_EVENT (R101). -/
def State.takeFire (s : State) (k : Lane) : State :=
  match s.dueFire k with
  | some e => s.fire k e
  | none => s

/-- DEADLINE (R104): the waiting entry's action misses, KNIFE BUSY. -/
def State.takeDeadline (s : State) (k : Lane) : State :=
  match s.dueDeadline k with
  | some e => s.missAction k e.serial e.index .knifeBusy
  | none => s

/-- WINDOW_EXPIRY (R79 to R81). -/
def State.takeExpiry (s : State) (k : Lane) : State := if s.dueExpiry k then s.expire k else s

/-- SETTLE_END (R84). -/
def State.takeSettle (s : State) (k : Lane) : State := if s.dueSettle k then s.finishSettle k else s

/-- A position event. -/
inductive Due where
  | lead (k : Lane) | commit (k : Lane) | settle (k : Lane) | expiry (k : Lane) | fire (k : Lane)
  | deadline (k : Lane) | tail (k : Lane) | passage | retirement | filmBreak
deriving DecidableEq, Repr

/-- The taking of a position event. -/
def Due.take : Due → State → State
  | .lead k, s => s.takeLead k
  | .commit k, s => s.takeCommit k
  | .settle k, s => s.takeSettle k
  | .expiry k, s => s.takeExpiry k
  | .fire k, s => s.takeFire k
  | .deadline k, s => s.takeDeadline k
  | .tail k, s => s.takeTail k
  | .passage, s => s.passSplice
  | .retirement, s => s.retireSplice
  | .filmBreak, s => s.breakFilm

/-- A position event is due. -/
def State.isDue (s : State) : Due → Bool
  | .lead k => (s.dueLead k).isSome
  | .commit k => (s.dueCommit k).isSome
  | .settle k => s.dueSettle k
  | .expiry k => s.dueExpiry k
  | .fire k => (s.dueFire k).isSome
  | .deadline k => (s.dueDeadline k).isSome
  | .tail k => (s.dueTail k).isSome
  | .passage => s.ten.splices.any s.passageDue
  | .retirement => s.ten.splices.any s.retireDue
  | .filmBreak => s.ten.breakWatch == .due

/-- The position events, in the order in which those still due are taken (DESIGN CHOICE, assumption 3:
the manual lets either of two events at one line advance be taken first). -/
def dueOrder : List Due :=
  lanes.map Due.lead ++ lanes.map Due.commit ++ lanes.map Due.settle ++ lanes.map Due.expiry ++
    lanes.map Due.fire ++ lanes.map Due.deadline ++ lanes.map Due.tail ++
    [Due.passage, Due.retirement, Due.filmBreak]

/-- The next position event that is still due. -/
def State.nextDue (s : State) : Option Due := dueOrder.find? s.isDue

/-- The position events still due, one after another, at most `n` of them. -/
def takeDueUpTo : Nat → State → State
  | 0, s => s
  | n + 1, s =>
    match s.nextDue with
    | some d => takeDueUpTo n (d.take s)
    | none => s

/-- Every position event still due is taken (R7: at the line advance that reached it). -/
def State.takeDue (s : State) : State := takeDueUpTo Config.dueBound s

/-! ### Timer events -/

/-- The staleness timer reaches 10 ms (R12). -/
def State.goStale (s : State) : State :=
  if s.lpm.stale then s
  else
    (s.setLpm { s.lpm with stale := true, sinceSampleMs := Config.staleMs }).causeHolds .loopSensor

/-- The staleness timer has counted its 10 ms and the event has not been taken. -/
def State.staleDue (s : State) : Bool :=
  !s.lpm.stale && decide (Config.staleMs ≤ s.lpm.sinceSampleMs)

/-- The fire pulse of knife `k` has lasted its 2 ms (R112). -/
def State.pulseDue (s : State) (k : Lane) : Bool :=
  (s.knife k).fire && decide (Config.firePulseMs ≤ (s.knife k).firePulseMs)

/-- The stroke timer of knife `k` has reached the held timeout (R114). -/
def State.timeoutDue (s : State) (k : Lane) : Bool :=
  match (s.knife k).state with
  | .stroke r => decide (r.timeoutMs * 100 ≤ r.timer)
  | .ready | .fault | .disabled => false

/-- The timer events of knife `k` that are still due. -/
def State.takeKnifeTimers (s : State) (k : Lane) : State :=
  let s := if s.pulseDue k then s.endPulse k else s
  if s.timeoutDue k then s.strokeTimeout k else s

/-- Every timer event still due is taken: staleness, then the knives from 0 to 3, the end of the fire pulse
before the timeout of the stroke (assumptions 4 and 33). -/
def State.takeTimers (s : State) : State :=
  let s := if s.staleDue then s.goStale else s
  (((s.takeKnifeTimers .l0).takeKnifeTimers .l1).takeKnifeTimers .l2).takeKnifeTimers .l3

end Sys2Proof.Machine
end

