-- ==== Sys2Proof/Machine/KnifeUnits.lean ====
section
/-! DEFINITION. The knife requests (R116 to R119), the attribute requests (R125 to R128), and the commands
on the lines and timers of the knives (R112 to R115). -/

namespace Sys2Proof.Machine

/-- The state with the knife state of knife `k` replaced. -/
def State.setKnifeState (s : State) (k : Lane) (x : KnifeState) : State :=
  s.setKnife k { s.knife k with state := x }

/-- The state with the disable-pending flag of knife `k` set or cleared. -/
def State.setDisablePending (s : State) (k : Lane) (b : Bool) : State :=
  s.setKnife k { s.knife k with disablePending := b }

/-- A WRONG STATE refusal that names the state of knife `k` (R116). -/
def State.wrongKnife (s : State) (k : Lane) : Verdict := .wrong (knifeStateBody (s.knife k).state)

/-- KNIFE ENABLE (R118). -/
def knifeEnableRule (_ : Port) (body : List Byte) (s : State) : Verdict :=
  match bodyLane body with
  | none => .refuse .badArgument
  | some k =>
    match (s.knife k).state with
    | .disabled =>
      if (s.knife k).home then .perform fun s => s.setKnifeState k .ready else .refuse .notAtHome
    | .stroke _ =>
      if (s.knife k).disablePending then .perform fun s => s.setDisablePending k false
      else s.wrongKnife k
    | .ready | .fault => s.wrongKnife k

/-- KNIFE DISABLE (R117). -/
def knifeDisableRule (_ : Port) (body : List Byte) (s : State) : Verdict :=
  match bodyLane body with
  | none => .refuse .badArgument
  | some k =>
    match (s.knife k).state with
    | .ready | .fault => .perform fun s => s.setKnifeState k .disabled
    | .stroke _ => .perform fun s => s.setDisablePending k true
    | .disabled => s.wrongKnife k

/-- KNIFE RESET (R119). -/
def knifeResetRule (_ : Port) (body : List Byte) (s : State) : Verdict :=
  match bodyLane body with
  | none => .refuse .badArgument
  | some k =>
    match (s.knife k).state with
    | .fault =>
      if (s.knife k).home then .perform fun s => s.setKnifeState k .ready else .refuse .notAtHome
    | .ready | .stroke _ | .disabled => s.wrongKnife k

/-- ATTRIBUTE READ (R126). -/
def attributeReadRule (_ : Port) (body : List Byte) (s : State) : Verdict :=
  match bodyLane body with
  | none => .refuse .badArgument
  | some k => .tell (s.attributeBytes k)

/-- The attribute rows at their reset values, with the nominal stroke time of G4 (R120, R127). -/
def Knife.freshRows (n : Knife) (nominal : Nat) : Knife :=
  { n with
    strokes := 0, lifeN := 253, lifeWorst := 253, lifeLatch := false,
    lastDuration := none, mean := nominal, timeN := 253, timeWorst := 253, timeLatch := false,
    preFail := false }

/-- ATTRIBUTE RESET (R127). -/
def attributeResetRule (_ : Port) (body : List Byte) (_ : State) : Verdict :=
  match bodyLane body with
  | none => .refuse .badArgument
  | some k => .perform fun s =>
      s.setKnife k ((s.knife k).freshRows s.params.g4.nominalStrokeTime)

/-- The attribute rows as ATTRIBUTE LOAD writes and recomputes them (R128). -/
def Knife.loadedRows (n : Knife) (g : G4) (strokes mean last : Nat) : Knife :=
  let life := Sys2Proof.Machine.lifeN g.ratedLife strokes
  let time := Sys2Proof.Machine.timeN g.nominalStrokeTime mean
  { n with
    strokes := strokes, lifeN := life, lifeWorst := life, lifeLatch := false,
    lastDuration := if last = 0 then none else some last, mean := mean, timeN := time,
    timeWorst := time, timeLatch := false, preFail := false }

/-- ATTRIBUTE LOAD's effect: the rows, then the tests, STROKE LIFE first (R128, R123). -/
def State.loadAttributes (s : State) (k : Lane) (strokes mean last : Nat) : State :=
  ((s.setKnife k ((s.knife k).loadedRows s.params.g4 strokes mean last)).testLife k).testTime k

/-- The knife is in STROKE. -/
def KnifeState.isStroke : KnifeState → Bool
  | .stroke _ => true
  | .ready | .fault | .disabled => false

/-- ATTRIBUTE LOAD (R128): values, line state, knife state. -/
def attributeLoadRule (_ : Port) (body : List Byte) (s : State) : Verdict :=
  if body.length = 10 then
    match laneOf (field body 0 1) with
    | none => .refuse .badArgument
    | some k =>
      let mean := field body 4 3
      let last := field body 7 3
      if 100000 < mean ∨ 100000 < last then .refuse .badArgument
      else if s.lnc.line ≠ .offline then .wrong (lineStateBody s.lnc.line)
      else if (s.knife k).state.isStroke then s.wrongKnife k
      else .perform fun s => s.loadAttributes k (field body 1 3) mean last
  else .refuse .badArgument

def execKnifeEnable (p : Port) (b : List Byte) (s : State) : Host.Outcome State Fault Refusal :=
  takeRequest p .knifeEnable b (knifeEnableRule p b) s
def execKnifeDisable (p : Port) (b : List Byte) (s : State) : Host.Outcome State Fault Refusal :=
  takeRequest p .knifeDisable b (knifeDisableRule p b) s
def execKnifeReset (p : Port) (b : List Byte) (s : State) : Host.Outcome State Fault Refusal :=
  takeRequest p .knifeReset b (knifeResetRule p b) s
def execAttributeRead (p : Port) (b : List Byte) (s : State) : Host.Outcome State Fault Refusal :=
  takeRequest p .attributeRead b (attributeReadRule p b) s
def execAttributeReset (p : Port) (b : List Byte) (s : State) : Host.Outcome State Fault Refusal :=
  takeRequest p .attributeReset b (attributeResetRule p b) s
def execAttributeLoad (p : Port) (b : List Byte) (s : State) : Host.Outcome State Fault Refusal :=
  takeRequest p .attributeLoad b (attributeLoadRule p b) s

def execFirePulseEnd (k : Lane) (s : State) : Host.Outcome State Fault Refusal := .next (s.endPulse k)
def execHomeLeave (k : Lane) (s : State) : Host.Outcome State Fault Refusal := .next (s.homeLeave k)
def execHomeReturn (k : Lane) (d : Nat) (s : State) : Host.Outcome State Fault Refusal :=
  .next (s.homeReturn k d)
def execStrokeTimeout (k : Lane) (s : State) : Host.Outcome State Fault Refusal :=
  .next (s.strokeTimeout k)

end Sys2Proof.Machine
end

