-- ==== Sys2Proof/Machine/Line.lean ====
section
/-! DEFINITION. The line requests (R148 to R160), the splice requests and film events of the tension unit
(R130 to R145), and the two resets (0.4.8). -/

namespace Sys2Proof.Machine

/-! ### Line requests -/

/-- The reply body of an accepted line request: the line state after it (R148). -/
def lineAccepted (f : State → State) : Verdict :=
  .accepted fun s => (f s, be1 (f s).lnc.line.code)

/-- A line request that carries a body is refused BAD ARGUMENT, and its reply names the line state (R148,
assumption 13). -/
def lineRequest (body : List Byte) (s : State) (v : Verdict) : Verdict :=
  if body.isEmpty then v else .refused .badArgument (be1 s.lnc.line.code) id

/-- What a CONFIG INVALID reply holds (R150, Table 10-9). -/
def State.configInvalidBytes (s : State) : List Byte :=
  be1 s.lnc.line.code ++ match s.params.firstFailure with
    | some f => f.bytes
    | none => []

/-- LINE ARM (R150). -/
def lineArmRule (_ : Port) (body : List Byte) (s : State) : Verdict :=
  lineRequest body s
    (match s.lnc.line with
      | .offline =>
        if s.lnc.configValid then lineAccepted fun s => s.enterLine .ready
        else .refused .configInvalid s.configInvalidBytes id
      | .ready | .run | .drain | .halted => .wrong (lineStateBody s.lnc.line))

/-- LINE START (R151). -/
def lineStartRule (_ : Port) (body : List Byte) (s : State) : Verdict :=
  lineRequest body s
    (match s.lnc.line with
      | .ready => lineAccepted fun s => s.enterRunning .run
      | .offline | .run | .drain | .halted => .wrong (lineStateBody s.lnc.line))

/-- LINE STOP (R152). -/
def lineStopRule (_ : Port) (body : List Byte) (s : State) : Verdict :=
  lineRequest body s
    (match s.lnc.line with
      | .run | .drain => lineAccepted fun s => s.enterLine .ready
      | .offline | .ready | .halted => .wrong (lineStateBody s.lnc.line))

/-- LINE DRAIN (R153). -/
def lineDrainRule (_ : Port) (body : List Byte) (s : State) : Verdict :=
  lineRequest body s
    (match s.lnc.line with
      | .run => lineAccepted fun s =>
          if s.lineEmpty then s.enterLine .ready else s.enterRunning .drain
      | .offline | .ready | .drain | .halted => .wrong (lineStateBody s.lnc.line))

/-- LINE RESUME's effect: the halt cause is cleared and the line enters RUN (R158). -/
def State.resume (s : State) : State :=
  (s.setLnc { s.lnc with haltCause := none }).enterRunning .run

/-- LINE RESUME (R158): every refusal WRONG STATE carries the standing conditions (R183). -/
def lineResumeRule (_ : Port) (body : List Byte) (s : State) : Verdict :=
  lineRequest body s
    (match s.lnc.line with
      | .halted =>
        if s.standingCauses.isEmpty then lineAccepted State.resume
        else .wrong (lineStateBody s.lnc.line ++ be1 s.standingBits)
      | .offline | .ready | .run | .drain =>
        .wrong (lineStateBody s.lnc.line ++ be1 s.standingBits))

/-- MAP at LINE CLEAR (R61). -/
def State.clearMap (s : State) : State :=
  let s := s.setMap { s.map with
    seqs := .all [], waiting := [], outfeed := [], cursors := .all (.start .l0) }
  s.checkPool.checkOutfeedFull

/-- A lane record at LINE CLEAR (Table 4-1). -/
def LaneRec.cleared (r : LaneRec) : LaneRec :=
  { r with state := .idle, missCount := 0, strayCount := 0, recovery := 0, expected := none }

/-- TEN at LINE CLEAR (R145), after the line state. -/
def State.clearSplices (s : State) : State :=
  let t := s.setTen { s.ten with splices := [] }
  if s.ten.splices.isEmpty then t.refreshDuty else t.switchProfile .normal

/-- LINE CLEAR's effect (R160, Table 8-5). -/
def State.lineClear (s : State) : State :=
  let freed := s.residents.length
  let s := (s.setLnc { s.lnc with haltCause := none }).enterLine .offline
  let s := s.clearMap.setFireList []
  let s := s.setReg { s.reg with lanes := s.reg.lanes.map LaneRec.cleared }
  s.clearSplices.report
    (newRecord (.planNotice .mapCleared) none none (some s.mot.l) (some freed))

/-- LINE CLEAR (R160). -/
def lineClearRule (_ : Port) (body : List Byte) (s : State) : Verdict :=
  lineRequest body s
    (match s.lnc.line with
      | .offline | .ready | .halted => lineAccepted State.lineClear
      | .run | .drain => .wrong (lineStateBody s.lnc.line))

/-! ### Splice requests -/

/-- The reply body of a splice request: its nip reading and its retire reading (Table 10-9). -/
def Splice.bytes (x : Splice) : List Byte := wordBytes x.nip ++ wordBytes x.retire

/-- FILM SPLICE (R140). -/
def filmSpliceRule (_ : Port) (body : List Byte) (s : State) : Verdict :=
  withoutBody body
    (if Config.spliceRecords ≤ s.ten.splices.length then .refuse .listFull
     else .accepted fun s => (s.filmSplice, (s.params.spliceAt .film s.mot.l true).bytes))

/-- The state in which a request is taken. A FILM BREAK still due at the last line advance comes before a
FILM SPLICE that will be accepted (R146, assumption 34). -/
def State.beforeRequest (s : State) (p : Port) (r : Request) (body : List Byte) : State :=
  match r with
  | .filmSplice =>
    if s.receiving p && r.allowed p && body.isEmpty &&
        decide (s.ten.splices.length < Config.spliceRecords) then s.breakFilm else s
  | _ => s

/-- The record that a WEB SPLICE at coordinate `w` enters (R141). -/
def State.webSpliceAt (s : State) (w : Word) : Splice :=
  s.params.spliceAt .web (s.webReading w) (s.reached (s.webReading w))

/-- WEB SPLICE (R141). -/
def webSpliceRule (_ : Port) (body : List Byte) (s : State) : Verdict :=
  if body.length = 4 then
    let w := field32 body 0
    if 0 < w.diff s.mot.p then .refuse .futurePosition
    else if Config.spliceRecords ≤ s.ten.splices.length then .refuse .listFull
    else .accepted fun s => (s.webSplice (s.webSpliceAt w), (s.webSpliceAt w).bytes)
  else .refuse .badArgument

/-! ### The commands -/

def execLineArm (p : Port) (b : List Byte) (s : State) : Host.Outcome State Fault Refusal :=
  takeRequest p .lineArm b (lineArmRule p b) s
def execLineStart (p : Port) (b : List Byte) (s : State) : Host.Outcome State Fault Refusal :=
  takeRequest p .lineStart b (lineStartRule p b) s
def execLineStop (p : Port) (b : List Byte) (s : State) : Host.Outcome State Fault Refusal :=
  takeRequest p .lineStop b (lineStopRule p b) s
def execLineDrain (p : Port) (b : List Byte) (s : State) : Host.Outcome State Fault Refusal :=
  takeRequest p .lineDrain b (lineDrainRule p b) s
def execLineResume (p : Port) (b : List Byte) (s : State) : Host.Outcome State Fault Refusal :=
  takeRequest p .lineResume b (lineResumeRule p b) s
def execLineClear (p : Port) (b : List Byte) (s : State) : Host.Outcome State Fault Refusal :=
  takeRequest p .lineClear b (lineClearRule p b) s
def execFilmSplice (p : Port) (b : List Byte) (s : State) : Host.Outcome State Fault Refusal :=
  takeRequest p .filmSplice b (filmSpliceRule p b) (s.beforeRequest p .filmSplice b)
def execWebSplice (p : Port) (b : List Byte) (s : State) : Host.Outcome State Fault Refusal :=
  takeRequest p .webSplice b (webSpliceRule p b) s

def execIndexPulse (s : State) : Host.Outcome State Fault Refusal := .next s.indexEdge
def execFilmBreak (s : State) : Host.Outcome State Fault Refusal := .next s.breakFilm
def execSplicePassage (s : State) : Host.Outcome State Fault Refusal := .next s.passSplice
def execRetirement (s : State) : Host.Outcome State Fault Refusal := .next s.retireSplice

/-- Every block at its reset values, with the pin levels at the release; the commands that wait stay
(0.4.8, assumption 1). -/
def State.afterReset (s : State) (pins : PinLevels) : State :=
  { State.resetWith pins with pending := s.pending }

def execPowerOnReset (pins : PinLevels) (s : State) : Host.Outcome State Fault Refusal :=
  .next (s.afterReset pins)
def execPinReset (pins : PinLevels) (s : State) : Host.Outcome State Fault Refusal :=
  .next (s.afterReset pins)

end Sys2Proof.Machine
end

