-- ==== Sys2Proof/Machine/Panels.lean ====
section
/-! DEFINITION. The requests and events of the panel map and of the lanes: MAP SEEK and MAP READ (R57 to
R60), OUTFEED TAKE (R55), PANEL VOID (R50), LANE REACQUIRE (R87), the lead and tail events (R43, R45), and
the mark edge, window expiry and end of settle of a lane (R72, R79, R84). -/

namespace Sys2Proof.Machine

/-! ### The map walk -/

/-- The state with the map cursor of a port set. -/
def State.setCursor (s : State) (p : Port) (c : Cursor) : State :=
  s.setMap { s.map with cursors := s.map.cursors.set p c }

/-- MAP SEEK (R58). -/
def mapSeekRule (p : Port) (body : List Byte) (_ : State) : Verdict :=
  match bodyLane body with
  | none => .refuse .badArgument
  | some k => .perform fun s => s.setCursor p (.start k)

/-- The panel with the least W_lead (R59, assumption 18). -/
def leastPanel : List Panel → Option Panel
  | [] => none
  | q :: qs =>
    match leastPanel qs with
    | none => some q
    | some r => if r.wLead.diff q.wLead < 0 then some r else some q

/-- The panel that a cursor at the start of lane `k` finds (R59). -/
def State.firstPanel (s : State) (k : Lane) : Option Panel := leastPanel (s.residentsOf k)

/-- The panel that a cursor at coordinate `w` of lane `k` finds in that lane (R59). -/
def State.panelFrom (s : State) (k : Lane) (w : Word) : Option Panel :=
  leastPanel ((s.residentsOf k).filter fun q => decide (0 ≤ q.wLead.diff w))

/-- The first panel of these lanes, those not present passed over (R59). -/
def State.walk (s : State) : List Lane → Option Panel
  | [] => none
  | k :: ks =>
    if s.params.isPresent k then
      match s.firstPanel k with
      | some q => some q
      | none => s.walk ks
    else s.walk ks

/-- The lanes above a lane. -/
def lanesAbove : Lane → List Lane
  | .l0 => [.l1, .l2, .l3] | .l1 => [.l2, .l3] | .l2 => [.l3] | .l3 => []

/-- The panel that MAP READ returns from a cursor (R59). -/
def State.readAt (s : State) : Cursor → Option Panel
  | .atEnd => none
  | .start k => (s.firstPanel k).or (s.walk (lanesAbove k))
  | .coordinate k w => (s.panelFrom k w).or (s.walk (lanesAbove k))

/-- The place of a resident panel (R37). -/
def State.placeOf (s : State) (q : Panel) : Place :=
  if s.map.outfeed.any (·.serial == q.serial) then .outfeedList
  else if s.map.waiting.any (·.serial == q.serial) then .waitingList
  else .laneSequence

/-- MAP READ (R59, R60): the cursor moves past the panel, or to the end with the reply EMPTY. -/
def mapReadRule (p : Port) (body : List Byte) (s : State) : Verdict :=
  withoutBody body
    (match s.readAt (s.map.cursors.get p) with
      | some q => .accepted fun s =>
          (s.setCursor p (.coordinate q.lane (q.wLead + 1)), panelBytes q (s.placeOf q))
      | none => .refused .empty [] fun s => s.setCursor p .atEnd)

/-! ### Outfeed and voids -/

/-- The oldest waiting panel takes the room on the outfeed list (R55). -/
def State.fillRoom (s : State) : State :=
  match s.map.waiting with
  | [] => s
  | q :: qs => s.setMap { s.map with outfeed := s.map.outfeed ++ [q], waiting := qs }

/-- OUTFEED TAKE's effect: the oldest record of the lane leaves the list (R55). -/
def State.takeOutfeed (s : State) (k : Lane) : State :=
  ((s.setMap { s.map with outfeed := s.map.outfeed.eraseP (·.lane == k) }).fillRoom).checkPool.checkOutfeedFull

/-- OUTFEED TAKE (R55). -/
def outfeedTakeRule (_ : Port) (body : List Byte) (s : State) : Verdict :=
  match bodyLane body with
  | none => .refuse .badArgument
  | some k =>
    match s.map.outfeed.find? (·.lane == k) with
    | some q => .accepted fun s => (s.takeOutfeed k, panelBytes q .outfeedList)
    | none => .refuse .empty

/-- The lane whose sequence holds a serial. -/
def State.laneHolding (s : State) (serial : Half) : Option Lane :=
  lanes.find? fun k => (s.findPanel k serial).isSome

/-- PANEL VOID's effect (R50): the void cause REQUESTED, or only the dropping of PERF actions where a cause
is already set. -/
def State.requestVoid (s : State) (k : Lane) (serial : Half) : State :=
  match s.findPanel k serial with
  | none => s
  | some q =>
    if q.voidCause.isSome then s.dropPerfs k serial
    else s.voidPanel k serial .requested none s.mot.l false

/-- PANEL VOID (R50). -/
def panelVoidRule (_ : Port) (body : List Byte) (s : State) : Verdict :=
  if body.length = 2 then
    let serial := field16 body 0
    match s.laneHolding serial with
    | some k => .perform fun s => s.requestVoid k serial
    | none =>
      if (s.map.waiting ++ s.map.outfeed).any (·.serial == serial) then .refuse .tooLate
      else .refuse .unknownTag
  else .refuse .badArgument

/-! ### LANE REACQUIRE -/

/-- LANE REACQUIRE (R87). -/
def laneReacquireRule (_ : Port) (body : List Byte) (s : State) : Verdict :=
  match bodyLane body with
  | none => .refuse .badArgument
  | some k =>
    match (s.lane k).state with
    | .coast | .lost => .perform fun s => s.reacquire k
    | .idle | .acquire | .track => .wrong (laneStateBody (s.lane k).state)

/-! ### The commands -/

def execMapSeek (p : Port) (b : List Byte) (s : State) : Host.Outcome State Fault Refusal :=
  takeRequest p .mapSeek b (mapSeekRule p b) s
def execMapRead (p : Port) (b : List Byte) (s : State) : Host.Outcome State Fault Refusal :=
  takeRequest p .mapRead b (mapReadRule p b) s
def execOutfeedTake (p : Port) (b : List Byte) (s : State) : Host.Outcome State Fault Refusal :=
  takeRequest p .outfeedTake b (outfeedTakeRule p b) s
def execPanelVoid (p : Port) (b : List Byte) (s : State) : Host.Outcome State Fault Refusal :=
  takeRequest p .panelVoid b (panelVoidRule p b) s
def execLaneReacquire (p : Port) (b : List Byte) (s : State) : Host.Outcome State Fault Refusal :=
  takeRequest p .laneReacquire b (laneReacquireRule p b) s

def execLeadEvent (k : Lane) (s : State) : Host.Outcome State Fault Refusal := .next (s.takeLead k)
def execTailEvent (k : Lane) (s : State) : Host.Outcome State Fault Refusal := .next (s.takeTail k)
def execMarkEdge (k : Lane) (s : State) : Host.Outcome State Fault Refusal := .next (s.markEdge k)
def execWindowExpiry (k : Lane) (s : State) : Host.Outcome State Fault Refusal := .next (s.takeExpiry k)
def execSettleEnd (k : Lane) (s : State) : Host.Outcome State Fault Refusal := .next (s.takeSettle k)
def execCommit (k : Lane) (s : State) : Host.Outcome State Fault Refusal := .next (s.takeCommit k)
def execFireEvent (k : Lane) (s : State) : Host.Outcome State Fault Refusal := .next (s.takeFire k)
def execDeadline (k : Lane) (s : State) : Host.Outcome State Fault Refusal := .next (s.takeDeadline k)

end Sys2Proof.Machine
end

