-- ==== Sys2Proof/Machine/Plans.lean ====
section
/-! DEFINITION. The requests of the plan store: PLAN ADD, PLAN WITHDRAW and PRINT NOTICE (R21 to R35). -/

namespace Sys2Proof.Machine

/-! ### PLAN ADD -/

/-- A plan as a PLAN ADD body carries it (Table 10-6). -/
structure PlanBody where
  lane       : Nat
  tag        : Half
  length     : Nat
  indication : Nat
  reprintTag : Half
  marks      : List Nat
  actions    : List (Nat × Nat)
deriving DecidableEq, Repr

/-- The plan of a body whose length agrees with its mark and action counts (Table 10-6). -/
def planBody (b : List Byte) : Option PlanBody :=
  let m := field b 6 1
  let a := field b 7 1
  if 11 ≤ b.length ∧ b.length = 11 + 3 * m + 4 * a then
    some { lane := field b 0 1, tag := field16 b 1, length := field b 3 3,
           indication := field b 8 1, reprintTag := field16 b 9,
           marks := (List.range m).map fun i => field b (11 + 3 * i) 3,
           actions := (List.range a).map fun i =>
             (field b (11 + 3 * m + 4 * i) 3, field b (11 + 3 * m + 4 * i + 3) 1) }
  else none

/-- The body that carries a plan (Table 10-6). -/
def PlanBody.bytes (q : PlanBody) : List Byte :=
  be1 q.lane ++ be2 q.tag.toNat ++ be3 q.length ++ be1 q.marks.length ++ be1 q.actions.length ++
    be1 q.indication ++ be2 q.reprintTag.toNat ++ q.marks.flatMap be3 ++
    q.actions.flatMap fun a => be3 a.1 ++ be1 a.2

/-- Each offset lies at least `gap` past the one before it. -/
def spaced (gap : Nat) : List Nat → Bool
  | x :: y :: rest => decide (x + gap ≤ y) && spaced gap (y :: rest)
  | _ => true

/-- The kind that an action's kind code names. -/
def actionKindOf : Nat → Option ActionKind
  | 0 => some .cut | 1 => some .perf | _ => none

/-- The checks of Table 2-2 but for the body length and the lane. -/
def PlanBody.valid (q : PlanBody) (spacing : Nat) : Bool :=
  decide (1000 ≤ q.length ∧ q.length ≤ 600000) &&
  decide (1 ≤ q.marks.length ∧ q.marks.length ≤ 8) &&
  decide (1 ≤ q.actions.length ∧ q.actions.length ≤ 6) &&
  q.actions.all (fun a => (actionKindOf a.2).isSome) &&
  q.marks.all (fun m => decide (m ≤ q.length)) &&
  q.actions.all (fun a => decide (a.1 ≤ q.length)) &&
  spaced 500 q.marks && spaced spacing (q.actions.map (·.1)) &&
  decide (q.marks.headD 0 < (q.actions.map (·.1)).headD 0) &&
  decide (q.indication ≤ 1) && (q.indication == 1 || q.reprintTag == 0)

/-- The plan record of a plan that passed its checks (Table 2-1). -/
def PlanBody.plan (q : PlanBody) : Plan :=
  { tag := q.tag, length := q.length, marks := q.marks,
    actions := q.actions.map fun a => (a.1, (actionKindOf a.2).getD .cut),
    reprintOf := if q.indication = 1 then some q.reprintTag else none }

/-- PLAN ADD (R21, R22). -/
def planAddRule (_ : Port) (body : List Byte) (s : State) : Verdict :=
  match planBody body with
  | none => .refuse .badArgument
  | some q =>
    match laneOf q.lane with
    | none => .refuse .badArgument
    | some k =>
      if !(s.params.isPresent k && q.valid s.params.g4.minimumCutSpacing) then .refuse .badArgument
      else if (s.plans k).any (·.tag == q.tag) then .refuse .duplicateTag
      else if s.freePlans = 0 then .refuse .listFull
      else .perform fun s => s.setPlans k (s.plans k ++ [q.plan])

/-! ### PLAN WITHDRAW -/

/-- PLAN WITHDRAW (R23). -/
def planWithdrawRule (_ : Port) (body : List Byte) (s : State) : Verdict :=
  if body.length = 3 then
    match laneOf (field body 0 1) with
    | none => .refuse .badArgument
    | some k =>
      let tag := field16 body 1
      if (s.plans k).any (·.tag == tag) then
        .perform fun s => s.setPlans k ((s.plans k).eraseP (·.tag == tag))
      else if (s.residentsOf k).any (·.tag == tag) then .refuse .inMap
      else .refuse .unknownTag
  else .refuse .badArgument

/-! ### PRINT NOTICE -/

/-- The resident panel of the lane with the greatest W_lead, the one admitted most recently (R29,
assumption 18). -/
def latestPanel : List Panel → Option Panel
  | [] => none
  | q :: qs =>
    match latestPanel qs with
    | none => some q
    | some r => if 0 < q.wLead.diff r.wLead then some q else some r

/-- The notice at `wLead` overlaps the previous panel of the lane (R29). -/
def State.overlapsPrevious (s : State) (k : Lane) (wLead : Word) : Bool :=
  match latestPanel (s.residentsOf k) with
  | none => false
  | some q => decide (wLead.diff (q.wLead.plus q.length) < 0)

/-- The serial counter raised until no resident panel holds its value, at most `n` times more (R31). -/
def freshSerial (taken : Half → Bool) : Nat → Half → Half
  | 0, c => c + 1
  | n + 1, c => if taken (c + 1) then freshSerial taken n (c + 1) else c + 1

/-- The serial of the next admission (R31). -/
def State.nextSerial (s : State) : Half :=
  freshSerial (fun c => s.residents.any (·.serial == c)) Config.panelRecords s.pls.serial

/-- The PLAN SKIPPED records of the plans a match passes over, oldest first; the first is the primary
report and the others carry ANCILLARY (R30). -/
def reportSkipped (k : Lane) (panel : Half × Half) (ancillary : Bool) : List Plan → State → State
  | [], s => s
  | q :: qs, s =>
    reportSkipped k panel true qs (s.report
      { newRecord (.planNotice .planSkipped) (some k) (some panel) none (some q.tag.toNat) with
        ancillary := ancillary })

/-- The panel record at admission, before MAP decides its state (Table 2-4). -/
def Plan.panel (q : Plan) (k : Lane) (serial : Half) (wLead : Word) (quality : Quality) : Panel :=
  { serial := serial, tag := q.tag, lane := k, wLead := wLead, length := q.length,
    quality := quality, reprintOf := q.reprintOf, state := .loop, voidCause := none,
    marks := q.marks.map fun o => { offset := o, status := .pending },
    actions := q.actions.map fun a => { offset := a.1, kind := a.2, status := .pending },
    disposition := none, leadReading := 0, tailEvent := 0 }

/-- Admission of a matched plan (R31 to R35): registration first, then the predictions and the state of
the panel, its place in the lane sequence, the free count, and what entry to WEB brings. -/
def State.admitPanel (s : State) (k : Lane) (q : Plan) (serial : Half) (wLead : Word) (quality : Quality) :
    State :=
  let s := s.setPls { s.pls with serial := serial }
  let s := if (s.lane k).state = .idle then s.enterAcquire k else s
  let x := s.enterWeb (s.repredict k (q.panel k serial wLead quality))
  let s := (s.setSeq k (s.seq k ++ [x])).checkPool
  if x.state = .web then (s.reviewExpected k).laneScan k else s

/-- The effect of an accepted notice: the plans ahead of the match are skipped, the match leaves the
queue, and its panel is admitted (R30 to R35). -/
def State.takeNotice (s : State) (k : Lane) (q : Plan) (wLead : Word) (quality : Quality) : State :=
  let ahead := (s.plans k).takeWhile fun x => !(x.tag == q.tag)
  let rest := ((s.plans k).dropWhile fun x => !(x.tag == q.tag)).drop 1
  let serial := s.nextSerial
  let s := s.setPlans k rest
  let s := reportSkipped k (serial, q.tag) false ahead s
  s.admitPanel k q serial wLead quality

/-- The UNPLANNED PRINT record (R28). -/
def State.reportUnplanned (s : State) (k : Lane) (tag : Half) : State :=
  s.report (newRecord (.planNotice .unplannedPrint) (some k) none (some s.mot.l) (some tag.toNat))

/-- The print quality that a byte names. -/
def qualityOf : Nat → Option Quality
  | 0 => some .good | 1 => some .spoiled | _ => none

/-- The checks of Table 2-3 in their order (R26 to R29). -/
def noticeVerdict (s : State) (k : Lane) (tag : Half) (wLead : Word) (quality : Quality) : Verdict :=
  if ¬(s.lnc.line = .ready ∨ s.lnc.line = .run) then .wrong (lineStateBody s.lnc.line)
  else if (s.knife k).preFail then .refuse .knifeWorn
  else if s.freePanels = 0 then .refuse .poolFull
  else if 0 < wLead.diff s.mot.p then .refuse .futurePosition
  else
    match (s.plans k).find? (·.tag == tag) with
    | none => .refused .unplanned [] fun s => s.reportUnplanned k tag
    | some q =>
      if s.overlapsPrevious k wLead then .refuse .overlap
      else .perform fun s => s.takeNotice k q wLead quality

/-- PRINT NOTICE: its form (R25), then the checks of Table 2-3. -/
def printNoticeRule (_ : Port) (body : List Byte) (s : State) : Verdict :=
  if body.length = 8 then
    match laneOf (field body 0 1), qualityOf (field body 7 1) with
    | some k, some quality =>
      if s.params.isPresent k then noticeVerdict s k (field16 body 1) (field32 body 3) quality
      else .refuse .badArgument
    | _, _ => .refuse .badArgument
  else .refuse .badArgument

def execPlanAdd (p : Port) (b : List Byte) (s : State) : Host.Outcome State Fault Refusal :=
  takeRequest p .planAdd b (planAddRule p b) s
def execPlanWithdraw (p : Port) (b : List Byte) (s : State) : Host.Outcome State Fault Refusal :=
  takeRequest p .planWithdraw b (planWithdrawRule p b) s
def execPrintNotice (p : Port) (b : List Byte) (s : State) : Host.Outcome State Fault Refusal :=
  takeRequest p .printNotice b (printNoticeRule p b) s

end Sys2Proof.Machine
end

