-- ==== Sys2Proof/Machine/Store.lean ====
section
/-! DEFINITION. The requests of the port interfaces: IDENTIFY, STATUS READ, the parameter store (R184 to
R189) and the lock table (R190 to R193). -/

namespace Sys2Proof.Machine

/-- The ten bytes of an IDENTIFY reply (R184). -/
def identifyBytes (p : Port) : List Byte :=
  be2 0x0B04 ++ be1 1 ++ be1 4 ++ be1 Config.panelRecords ++ be1 Config.planRecords ++
    be1 Config.outfeedEntries ++ be1 Config.fireEntries ++ be1 Config.conditionRecords ++
    be1 (portNumber p)

/-- IDENTIFY (R184). -/
def identifyRule (p : Port) (body : List Byte) (_ : State) : Verdict :=
  withoutBody body (.tell (identifyBytes p))

/-- STATUS READ (R185). -/
def statusReadRule (_ : Port) (body : List Byte) (s : State) : Verdict :=
  withoutBody body (.tell s.statusBytes)

/-- PARAM READ (R187). -/
def paramReadRule (_ : Port) (body : List Byte) (s : State) : Verdict :=
  if body.length = 3 then
    match bodyParam body with
    | some q => .tell (body ++ be4 (s.params.value q))
    | none => .refuse .badArgument
  else .refuse .badArgument

/-- The configuration-valid flag is evaluated (R149). -/
def State.evalConfig (s : State) : State :=
  s.setLnc { s.lnc with configValid := s.params.firstFailure.isNone }

/-- A write to this parameter makes the tension-change signal in RUN and DRAIN (R138). -/
def Param.isBase : Param → Bool
  | .normalBase | .spliceBase => true
  | _ => false

/-- An accepted write and its hand-on to the blocks that act on it (R188, R189). -/
def State.writeParam (s : State) (q : Param) (v : Nat) : State :=
  let s := (s.setPif { s.pif with params := s.pif.params.write q v }).evalConfig
  let s := if q.group = .g2 then s.refreshDuty else s
  let s := if q.isBase && s.lnc.line.running then s.tensionChange else s
  if q = .poolReserve then s.checkPool else s

/-- The detail of an ACCESS NOTICE (R169). -/
def accessDetail (g : Group) (p : Port) : Int := 16 * groupNumber g + portNumber p

/-- The holder of a group's lock when it is another port than `p`. -/
def Locks.heldAgainst (t : Locks) (g : Group) (p : Port) : Option Port :=
  match t.get g with
  | some h => if h = p then none else some h
  | none => none

/-- PARAM WRITE (R188): form, lock, state, range. -/
def paramWriteRule (p : Port) (body : List Byte) (s : State) : Verdict :=
  if body.length = 7 then
    match bodyParam body with
    | none => .refuse .badArgument
    | some q =>
      let v : Int := (field32 body 3).toInt
      match s.pif.locks.heldAgainst q.group p with
      | some h => .refused .locked [] fun s => s.reportAccess .writeRefused h (accessDetail q.group p)
      | none =>
        if q.group = .g0 ∧ s.lnc.line ≠ .offline then .wrong (lineStateBody s.lnc.line)
        else if s.params.inRange q v then
          .accepted fun s => (s.writeParam q v.toNat, body.take 3 ++ intBytes4 v)
        else .refuse .badArgument
  else .refuse .badArgument

/-- The state with the lock of a group changed. -/
def State.setLock (s : State) (g : Group) (h : Option Port) : State :=
  s.setPif { s.pif with locks := s.pif.locks.set g h }

/-- LOCK (R190). -/
def lockRule (p : Port) (body : List Byte) (s : State) : Verdict :=
  match bodyGroup body with
  | none => .refuse .badArgument
  | some g =>
    match s.pif.locks.heldAgainst g p with
    | some h => .refused .locked [] fun s => s.reportAccess .lockRefused h (accessDetail g p)
    | none => .perform fun s => s.setLock g (some p)

/-- UNLOCK (R191). -/
def unlockRule (p : Port) (body : List Byte) (s : State) : Verdict :=
  match bodyGroup body with
  | none => .refuse .badArgument
  | some g =>
    if s.pif.locks.get g = some p then .perform fun s => s.setLock g none
    else .refuse .wrongState

/-- LOCK BREAK (R192). -/
def lockBreakRule (p : Port) (body : List Byte) (s : State) : Verdict :=
  match bodyGroup body with
  | none => .refuse .badArgument
  | some g =>
    match s.pif.locks.get g with
    | some h => .perform fun s =>
        (s.setLock g none).reportAccess .lockBroken h (accessDetail g p)
    | none => .refuse .wrongState

def execIdentify (p : Port) (b : List Byte) (s : State) : Host.Outcome State Fault Refusal :=
  takeRequest p .identify b (identifyRule p b) s
def execStatusRead (p : Port) (b : List Byte) (s : State) : Host.Outcome State Fault Refusal :=
  takeRequest p .statusRead b (statusReadRule p b) s
def execParamRead (p : Port) (b : List Byte) (s : State) : Host.Outcome State Fault Refusal :=
  takeRequest p .paramRead b (paramReadRule p b) s
def execParamWrite (p : Port) (b : List Byte) (s : State) : Host.Outcome State Fault Refusal :=
  takeRequest p .paramWrite b (paramWriteRule p b) s
def execLock (p : Port) (b : List Byte) (s : State) : Host.Outcome State Fault Refusal :=
  takeRequest p .lock b (lockRule p b) s
def execUnlock (p : Port) (b : List Byte) (s : State) : Host.Outcome State Fault Refusal :=
  takeRequest p .unlock b (unlockRule p b) s
def execLockBreak (p : Port) (b : List Byte) (s : State) : Host.Outcome State Fault Refusal :=
  takeRequest p .lockBreak b (lockBreakRule p b) s

end Sys2Proof.Machine
end

