-- ==== Sys2Proof/Machine/Frames.lean ====
section
/-! DEFINITION. A frame as it stands on the wire: its CRC (R181), its kind (R182), and the rule of the
request that it spells. The commands FRAME_ERROR and UNKNOWN_REQUEST are received so (assumption 23). -/

namespace Sys2Proof.Machine

/-- The rule that judges and answers a request (step 4 of R182). -/
def Request.rule : Request → Port → List Byte → State → Verdict
  | .identify => identifyRule | .statusRead => statusReadRule
  | .mapSeek => mapSeekRule | .mapRead => mapReadRule
  | .paramRead => paramReadRule | .paramWrite => paramWriteRule
  | .lock => lockRule | .unlock => unlockRule
  | .maskSet => maskSetRule | .conditionTake => conditionTakeRule
  | .conditionPeek => conditionPeekRule | .printNotice => printNoticeRule
  | .webSplice => webSpliceRule | .lineArm => lineArmRule
  | .lineStart => lineStartRule | .lineStop => lineStopRule
  | .lineResume => lineResumeRule | .lineClear => lineClearRule
  | .filmSplice => filmSpliceRule | .knifeEnable => knifeEnableRule
  | .knifeDisable => knifeDisableRule | .knifeReset => knifeResetRule
  | .outfeedTake => outfeedTakeRule | .lineDrain => lineDrainRule
  | .laneReacquire => laneReacquireRule | .planAdd => planAddRule
  | .planWithdraw => planWithdrawRule | .panelVoid => panelVoidRule
  | .logRead => logReadRule | .logClear => logClearRule
  | .attributeRead => attributeReadRule | .attributeReset => attributeResetRule
  | .attributeLoad => attributeLoadRule | .lockBreak => lockBreakRule

/-- The taking of a frame whose CRC is correct (R182). -/
def State.takeFrame (s : State) (p : Port) (kind : Byte) (body : List Byte) : State :=
  match Request.ofKind kind with
  | some r => (s.beforeRequest p r body).request p r body (r.rule p body)
  | none => (s.markPresent p).sendReply p body ⟨.unknownRequest, []⟩

/-- A whole frame reaches a port (R181): in phase KIND it is taken, or answered FRAME ERROR. -/
def State.receiveFrame (s : State) (p : Port) (kind : Byte) (body : List Byte) (crc : Byte) : State :=
  if s.receiving p then
    if crc = frameCrc kind body then s.takeFrame p kind body
    else s.sendReply p body ⟨.frameError, []⟩
  else s

/-- FRAME_ERROR (R181). -/
def execFrameError (p : Port) (kind : Byte) (body : List Byte) (crc : Byte) (s : State) :
    Host.Outcome State Fault Refusal := .next (s.receiveFrame p kind body crc)

/-- UNKNOWN_REQUEST (R182): a frame with a correct CRC. -/
def execUnknownRequest (p : Port) (kind : Byte) (body : List Byte) (s : State) :
    Host.Outcome State Fault Refusal := .next (s.receiveFrame p kind body (frameCrc kind body))

end Sys2Proof.Machine
end

