-- ==== Sys2Proof/Machine/Motion.lean ====
section
/-! DEFINITION. The motion unit and the loop monitor: encoder edges and line advance (R1 to R8), the
timebase (R9), and the dancer samples (R10 to R15). -/

namespace Sys2Proof.Machine

/-- The next phase state in forward travel (Table 1-1). -/
def Phase.next (x : Phase) : Phase :=
  match x.a, x.b with
  | false, false => ⟨true, false⟩
  | true, false => ⟨true, true⟩
  | true, true => ⟨false, true⟩
  | false, true => ⟨false, false⟩

/-- What a decoder makes of a sample of its channels (R1, R2). -/
inductive EdgeKind where
  | none | forward | reverse | illegal
deriving DecidableEq, Repr

def edgeKind (old new : Phase) : EdgeKind :=
  if new = old then .none
  else if new = Phase.next old then .forward
  else if old = Phase.next new then .reverse
  else .illegal

/-- The ENCODER PHASE report of an illegal transition; `detail` is 0 for the print encoder and 1 for the
line encoder (R2). -/
def State.reportPhase (s : State) (detail : Int) : State :=
  s.report (newRecord (.recovery .encoderPhase) none none (some s.mot.l) (some detail))

/-- A sample of the print encoder (R1 to R3). -/
def State.printEdge (s : State) (x : Phase) : State :=
  let m := { s.mot with printPhase := x }
  match edgeKind s.mot.printPhase x with
  | .none => s
  | .forward => s.setMot { m with p := m.p + 1 }
  | .reverse => s.setMot { m with p := m.p - 1 }
  | .illegal => (s.setMot { m with printErrors := satSucc 255 m.printErrors }).reportPhase 0

/-- Settle counts down on every lane (R83). -/
def State.settleStep (s : State) : State :=
  s.setReg { s.reg with lanes := s.reg.lanes.map LaneRec.settleStep }

/-- The lane scans of all four lanes (R94). -/
def State.scanLanes (s : State) : State :=
  (((s.laneScan .l0).laneScan .l1).laneScan .l2).laneScan .l3

/-- A line advance of one count (R5, R7): the high-water becomes L_now, settle and the index distance
count it, and the lanes are scanned. The position events it reaches are now due, so that the scans come
before a window expiry at the same advance (R110; assumption 32). -/
def State.advance (s : State) : State :=
  ((s.setMot { s.mot with highWater := s.mot.l }).settleStep.countIndex).scanLanes

/-- A forward line edge (R4, R5). -/
def State.lineForward (s : State) : State :=
  let s := s.setMot { s.mot with l := s.mot.l + 1, direction := .forward }
  if 0 < s.ahead s.mot.l then s.advance else s

/-- The high-water is lowered by one count (R6): the position events at the reading it leaves lie ahead
again. -/
def State.lowerHighWater (s : State) : State :=
  (s.setMot { s.mot with highWater := s.mot.highWater - 1 }).setTen
    { s.ten with splices := s.ten.splices.map (Splice.lowered s.mot.highWater) }

/-- A reverse line edge (R4, R6, R8). -/
def State.lineReverse (s : State) : State :=
  let lowers := Config.backOffLimit ≤ s.backOff + 1
  let before := s.standing .reverseLimit
  let s := s.setMot { s.mot with l := s.mot.l - 1, direction := .reverse }
  let s := if lowers then s.lowerHighWater else s
  if s.standing .reverseLimit && !before then s.causeHolds .reverseLimit else s

/-- A sample of the line encoder, after the position events still due (R1 to R8). -/
def State.lineEdge (s : State) (x : Phase) : State :=
  let s := s.takeDue
  let kind := edgeKind s.mot.linePhase x
  let s := s.setMot { s.mot with linePhase := x }
  match kind with
  | .none => s
  | .forward => s.lineForward
  | .reverse => s.lineReverse
  | .illegal =>
    (s.setMot { s.mot with lineErrors := satSucc 255 s.mot.lineErrors }).reportPhase 1

/-- The line history with L_now as its newest entry and the speed figure of it (R9). -/
def Mot.tick (m : Mot) : Mot :=
  let h := m.history.drop 1 ++ [m.l]
  { m with history := h, speed8 := speedFigure (h.headD 0) m.l }

/-- One millisecond counted by a knife controller's timers. -/
def Knife.tick (n : Knife) : Knife :=
  { n with
    firePulseMs := if n.fire then n.firePulseMs + 1 else n.firePulseMs
    state := match n.state with
      | .stroke r => .stroke { r with timer := r.timer + 100 }
      | .ready => .ready
      | .fault => .fault
      | .disabled => .disabled }

/-- An instant of the 1 ms timebase (R9), after the timer events still due; the millisecond timers of
the loop and the knives count it (assumption 4). -/
def State.tick (s : State) : State :=
  let s := s.takeTimers
  let s := s.setMot s.mot.tick
  let s := s.setLpm { s.lpm with sinceSampleMs := satSucc 65535 s.lpm.sinceSampleMs }
  s.setKnc { s.knc with knives := s.knc.knives.map Knife.tick }

/-! ### The loop monitor -/

/-- The loop-low-stop indication (R13). -/
def State.evalLowStop (s : State) : State :=
  if s.lpm.lp ≤ s.params.g3.lowStop then
    if s.lpm.lowStop then s else (s.setLpm { s.lpm with lowStop := true }).causeHolds .loopLow
  else s.setLpm { s.lpm with lowStop := false }

/-- The loop-low warning flag (R14). -/
def State.evalLowWarning (s : State) : State :=
  if s.lpm.lp ≤ s.params.g3.lowWarning then
    if s.lpm.lowWarning then s
    else (s.setLpm { s.lpm with lowWarning := true }).reportWarning .loopLow s.lpm.lp
  else if s.lpm.lowWarning then
    (s.setLpm { s.lpm with lowWarning := false }).withdraw .loopLow
  else s

/-- The loop reason and the loop-high warning flag (R15). With a hysteresis of 0 an Lp equal to the high
limit meets both bullets of R15, and the first alone is taken (assumption 27). -/
def State.evalHigh (s : State) : State :=
  if s.params.g3.highLimit ≤ s.lpm.lp then
    let t := s.setLpm { s.lpm with loopReason := true, highWarning := true }
    if s.lpm.highWarning then t else t.reportWarning .loopHigh s.lpm.lp
  else if (s.lpm.lp : Int) ≤ (s.params.g3.highLimit : Int) - s.params.g3.hysteresis then
    let t := s.setLpm { s.lpm with loopReason := false, highWarning := false }
    if s.lpm.highWarning then t.withdraw .loopHigh else t
  else s

/-- A valid sample (R11 to R15): staleness ends, the timer restarts, Lp is computed and the limits are
evaluated. -/
def State.loopSample (s : State) (sample : Nat) : State :=
  let s := s.setLpm { s.lpm with
    rxOpen := none, stale := false, sinceSampleMs := 0, sampleAbsent := false
    lp := loopLength s.params.g3.loopOffset s.params.g3.loopGain sample }
  s.evalLowStop.evalLowWarning.evalHigh

/-- The number of ones among the bits of a byte is odd. -/
def oddParity (b : Byte) : Bool :=
  b.getLsbD 0 ^^ b.getLsbD 1 ^^ b.getLsbD 2 ^^ b.getLsbD 3 ^^ b.getLsbD 4 ^^ b.getLsbD 5 ^^
    b.getLsbD 6 ^^ b.getLsbD 7

/-- The sample that a first and a second character carry, when its parity is correct (R10, R194): bit 6
of the first character makes the twelve sample bits and itself even. -/
def sampleOf (first second : Byte) : Option Nat :=
  let hi := first.toNat % 64
  let lo := second.toNat % 64
  if oddParity (byteOf hi) ^^ oddParity (byteOf lo) ^^ first.getLsbD 6 then none
  else some (hi * 64 + lo)

/-- A character on LOOP_RX (R10, R194). A second character with bit 6 set is a framing fault. -/
def State.rxCharacter (s : State) (c : Byte) (framed : Bool) : State :=
  if !framed || (!c.getLsbD 7 && c.getLsbD 6) then s.setLpm { s.lpm with rxOpen := none }
  else if c.getLsbD 7 then s.setLpm { s.lpm with rxOpen := some c }
  else
    match s.lpm.rxOpen with
    | none => s
    | some first =>
      match sampleOf first c with
      | some n => s.loopSample n
      | none => s.setLpm { s.lpm with rxOpen := none }

/-! ### The commands -/

def execPrintEdge (x : Phase) (s : State) : Host.Outcome State Fault Refusal := .next (s.printEdge x)
def execLineEdge (x : Phase) (s : State) : Host.Outcome State Fault Refusal := .next (s.lineEdge x)
def execTimebaseTick (s : State) : Host.Outcome State Fault Refusal := .next s.tick
def execLoopSample (n : BitVec 12) (s : State) : Host.Outcome State Fault Refusal :=
  .next (s.loopSample n.toNat)
def execLoopStale (s : State) : Host.Outcome State Fault Refusal := .next s.goStale
def execLoopRxCharacter (c : Byte) (framed : Bool) (s : State) : Host.Outcome State Fault Refusal :=
  .next (s.rxCharacter c framed)

end Sys2Proof.Machine
end

