-- ==== Sys2Proof/Machine/Dispatch.lean ====
section
/-! DEFINITION. The meaning of every command: one arm per row of the table. -/

namespace Sys2Proof.Machine

def exec (i : Instr) (s : State) : Host.Outcome State Fault Refusal :=
  match i with
  | .powerOnReset pins => Sys2Proof.Machine.execPowerOnReset pins s
  | .pinReset pins => Sys2Proof.Machine.execPinReset pins s
  | .csRelease p => Sys2Proof.Machine.execCsRelease p s
  | .frameError p kind body crc => Sys2Proof.Machine.execFrameError p kind body crc s
  | .unknownRequest p kind body => Sys2Proof.Machine.execUnknownRequest p kind body s
  | .identify p body => Sys2Proof.Machine.execIdentify p body s
  | .statusRead p body => Sys2Proof.Machine.execStatusRead p body s
  | .mapSeek p body => Sys2Proof.Machine.execMapSeek p body s
  | .mapRead p body => Sys2Proof.Machine.execMapRead p body s
  | .paramRead p body => Sys2Proof.Machine.execParamRead p body s
  | .paramWrite p body => Sys2Proof.Machine.execParamWrite p body s
  | .lock p body => Sys2Proof.Machine.execLock p body s
  | .unlock p body => Sys2Proof.Machine.execUnlock p body s
  | .lockBreak p body => Sys2Proof.Machine.execLockBreak p body s
  | .maskSet p body => Sys2Proof.Machine.execMaskSet p body s
  | .conditionTake p body => Sys2Proof.Machine.execConditionTake p body s
  | .conditionPeek p body => Sys2Proof.Machine.execConditionPeek p body s
  | .printNotice p body => Sys2Proof.Machine.execPrintNotice p body s
  | .webSplice p body => Sys2Proof.Machine.execWebSplice p body s
  | .filmSplice p body => Sys2Proof.Machine.execFilmSplice p body s
  | .lineArm p body => Sys2Proof.Machine.execLineArm p body s
  | .lineStart p body => Sys2Proof.Machine.execLineStart p body s
  | .lineStop p body => Sys2Proof.Machine.execLineStop p body s
  | .lineDrain p body => Sys2Proof.Machine.execLineDrain p body s
  | .lineResume p body => Sys2Proof.Machine.execLineResume p body s
  | .lineClear p body => Sys2Proof.Machine.execLineClear p body s
  | .knifeEnable p body => Sys2Proof.Machine.execKnifeEnable p body s
  | .knifeDisable p body => Sys2Proof.Machine.execKnifeDisable p body s
  | .knifeReset p body => Sys2Proof.Machine.execKnifeReset p body s
  | .outfeedTake p body => Sys2Proof.Machine.execOutfeedTake p body s
  | .laneReacquire p body => Sys2Proof.Machine.execLaneReacquire p body s
  | .planAdd p body => Sys2Proof.Machine.execPlanAdd p body s
  | .planWithdraw p body => Sys2Proof.Machine.execPlanWithdraw p body s
  | .panelVoid p body => Sys2Proof.Machine.execPanelVoid p body s
  | .logRead p body => Sys2Proof.Machine.execLogRead p body s
  | .logClear p body => Sys2Proof.Machine.execLogClear p body s
  | .attributeRead p body => Sys2Proof.Machine.execAttributeRead p body s
  | .attributeReset p body => Sys2Proof.Machine.execAttributeReset p body s
  | .attributeLoad p body => Sys2Proof.Machine.execAttributeLoad p body s
  | .printEdge channels => Sys2Proof.Machine.execPrintEdge channels s
  | .lineEdge channels => Sys2Proof.Machine.execLineEdge channels s
  | .timebaseTick => Sys2Proof.Machine.execTimebaseTick s
  | .loopSample sample => Sys2Proof.Machine.execLoopSample sample s
  | .loopStale => Sys2Proof.Machine.execLoopStale s
  | .markEdge k => Sys2Proof.Machine.execMarkEdge k s
  | .windowExpiry k => Sys2Proof.Machine.execWindowExpiry k s
  | .settleEnd k => Sys2Proof.Machine.execSettleEnd k s
  | .leadEvent k => Sys2Proof.Machine.execLeadEvent k s
  | .tailEvent k => Sys2Proof.Machine.execTailEvent k s
  | .commit k => Sys2Proof.Machine.execCommit k s
  | .fireEvent k => Sys2Proof.Machine.execFireEvent k s
  | .deadline k => Sys2Proof.Machine.execDeadline k s
  | .firePulseEnd k => Sys2Proof.Machine.execFirePulseEnd k s
  | .homeLeave k => Sys2Proof.Machine.execHomeLeave k s
  | .homeReturn k d => Sys2Proof.Machine.execHomeReturn k d s
  | .strokeTimeout k => Sys2Proof.Machine.execStrokeTimeout k s
  | .indexPulse => Sys2Proof.Machine.execIndexPulse s
  | .filmBreak => Sys2Proof.Machine.execFilmBreak s
  | .splicePassage => Sys2Proof.Machine.execSplicePassage s
  | .retirement => Sys2Proof.Machine.execRetirement s
  | .loopRxCharacter char framed => Sys2Proof.Machine.execLoopRxCharacter char framed s
  | .csAssertion p => Sys2Proof.Machine.execCsAssertion p s
  | .replyComplete p => Sys2Proof.Machine.execReplyComplete p s

end Sys2Proof.Machine
end

