-- ==== Sys2Proof/Machine/Step.lean ====
section
/-! DEFINITION. The step of the WR-4: the command at the front of the queue is carried out with the queue's
rest; with no command waiting the part idles (assumption 1). -/

namespace Sys2Proof.Machine

/-- The state with other commands waiting. -/
def State.withPending (s : State) (q : List Instr) : State := { s with pending := q }

/-- One step. -/
def step (s : State) : Host.Outcome State Fault Refusal :=
  match s.pending with
  | [] => .next s
  | c :: rest => exec c (s.withPending rest)

/-- The state with the command that a table word spells put at the front of the queue, and the state
itself where the word spells none. -/
def State.withFetchWord (s : State) (nbits w : Nat) : State :=
  match decodeTableWord nbits w with
  | some c => s.withPending (c :: s.pending)
  | none => s

end Sys2Proof.Machine
end

