-- ==== Sys2Proof/Safety.lean ====
section
/-! DEFINITION. What counts as a safe state of the WR-4, invariant by invariant, and the words in which
statements say what a command leaves as it was and what a port is answered. -/

namespace Sys2Proof.Machine

/-! ### Safe states -/

/-- The condition queue holds at most 32 records (R171). -/
def State.QueueFits (s : State) : Prop := s.cnd.queue.length ≤ 32

/-- The back-off lies in 0..2^24 − 1 (R5, R6). -/
def State.BackOffHeld (s : State) : Prop := 0 ≤ s.backOff ∧ s.backOff < 16777216

/-- A scale in its legal range (0.4.5). -/
def LegalScale (n : Nat) : Prop := 980000 ≤ n ∧ n ≤ 1030000

/-- The scale of every lane and the nominal scale of G1 are legal (Tables 4-1 and 10-4). -/
def State.ScalesLegal (s : State) : Prop :=
  LegalScale s.params.g1.nominalScale ∧ ∀ k, LegalScale (s.lane k).scale

/-- Resident records, outfeed list and waiting list keep their bounds (R37, R52, R53). -/
def State.PoolsFit (s : State) : Prop :=
  s.residents.length ≤ 96 ∧ s.map.outfeed.length ≤ 24 ∧
    (s.map.waiting ≠ [] → s.map.outfeed.length = 24)

/-- The serials of resident panels are unique (R31). -/
def State.SerialsUnique (s : State) : Prop := (s.residents.map (·.serial)).Nodup

/-- The plan pool holds at most 64 plans (R18). -/
def State.PlansFit (s : State) : Prop := s.usedPlans ≤ 64

/-- No lane holds more than 3 fire list entries (R91). -/
def State.EntriesFit (s : State) : Prop := ∀ k, (s.laneEntries k).length ≤ 3

/-- Every fire list entry was armed before the next arming (R90, assumption 36). -/
def State.OrdersFit (s : State) : Prop := ∀ e ∈ s.csc.fireList, e.order < s.csc.armings

/-- No two fire list entries have one number of arming (R90, assumption 36). -/
def State.OrdersDistinct (s : State) : Prop := (s.csc.fireList.map (·.order)).Nodup

/-- Entries in the order of R90: ascending F by its distance ahead of the high-water, and for equal F by their
arming (assumption 36). -/
def InFireOrder (highWater : Word) (es : List FireEntry) : Prop :=
  es.Pairwise fun a b => a.f.diff highWater < b.f.diff highWater ∨
    a.f.diff highWater = b.f.diff highWater ∧ a.order < b.order

/-- The fire list stands in the order of R90. -/
def State.FireListOrdered (s : State) : Prop := InFireOrder s.mot.highWater s.csc.fireList

/-- No fire position of the fire list lies at the far end of the signed range of 0.4.3, where one count of the
high-water would turn its distance over. -/
def State.FiresInReach (s : State) : Prop :=
  ∀ e ∈ s.csc.fireList, |e.f.diff s.mot.highWater| < 2147483647

/-- The status of the action that an entry stands for: ARMED or COMMITTED, at the entry's F (R90). -/
def FireEntry.status (e : FireEntry) : ActionStatus :=
  if e.committed = true then .committed e.f else .armed e.f

/-- Every fire list entry stands for an action of a panel in WEB or CUTTING of its lane, of its kind, with its
fire position and ARMED or COMMITTED as the entry is; no two entries stand for one action (R90, R91). -/
def State.EntriesMatch (s : State) : Prop :=
  (∀ e ∈ s.csc.fireList, ∃ q ∈ s.seq e.lane, q.serial = e.serial ∧ q.onWeb = true ∧
      (q.actions[e.index]?).map (fun a => (a.kind, a.status)) = some (e.kind, e.status)) ∧
    (s.csc.fireList.map fun e => (e.lane, e.serial, e.index)).Nodup

/-- A lane is IDLE just while its sequence is empty (R66). -/
def State.IdleFollows (s : State) : Prop := ∀ k, (s.lane k).state = .idle ↔ s.seq k = []

/-- The PENDING marks of the panels in WEB and CUTTING among these, in web order: the order of the panels, and
within a panel that of its marks; each by serial, index and web coordinate (R68). -/
def marksOnWeb (ps : List Panel) : List (Half × Nat × Word) :=
  (ps.filter fun q => q.state == .web || q.state == .cutting).flatMap fun q =>
    (q.marks.zipIdx.filter fun x => x.1.status == .pending).map fun x =>
      (q.serial, x.2, q.wLead.plus x.1.offset)

/-- The expected mark of a lane in ACQUIRE, TRACK or COAST is the earliest PENDING mark on the web, predicted on
the lane's reference and scale; a lane in IDLE or LOST has none (R68, R64). -/
def State.ExpectedFollows (s : State) : Prop :=
  ∀ k, let r := s.lane k
    r.expected.map (fun x => (x.serial, x.index, x.w, x.pred)) =
      if r.state = .idle ∨ r.state = .lost then none
      else (marksOnWeb (s.seq k)).head?.map fun m =>
        (m.1, m.2.1, m.2.2, predict r.wref r.lref r.scale m.2.2)

/-- The window expiry of lane `k`'s expected mark, if any, stands where R71 places it and has not been
reached. -/
def State.ExpiryAhead (s : State) (k : Lane) : Prop :=
  ∀ x, (s.lane k).expected = some x →
    x.expiry = x.pred.plus ((s.lane k).window + 1 + s.params.value (.sensorDistance k)) ∧
      0 < x.expiry.diff s.mot.highWater

/-- The settle window and gain are in force wherever settle remaining is above 0 (R84). -/
def State.SettleMarked (s : State) : Prop :=
  ∀ k, 0 < (s.lane k).settleRemaining → (s.lane k).settling = true

/-- At most 4 splices, and the active profile is SPLICE just while there is one (R137, R139). -/
def State.SplicesFit (s : State) : Prop :=
  s.ten.splices.length ≤ 4 ∧ (s.ten.profile = .splice ↔ s.ten.splices ≠ [])

/-- The brake duty is the one that the line state and the tension unit's figures call for (R133). -/
def State.DutyFollows (s : State) : Prop := s.ten.duty = s.wantedDuty

/-- The configuration-valid flag agrees with the checks of Table 8-2 (R149). -/
def State.ConfigFollows (s : State) : Prop := s.lnc.configValid = s.params.firstFailure.isNone

/-- The wear rows of a knife: N in 1..253, and worst no better than N (R120 to R123). -/
def Knife.RowsLegal (n : Knife) : Prop :=
  (1 ≤ n.lifeN ∧ n.lifeN ≤ 253 ∧ 1 ≤ n.lifeWorst ∧ n.lifeWorst ≤ n.lifeN) ∧
    (1 ≤ n.timeN ∧ n.timeN ≤ 253 ∧ 1 ≤ n.timeWorst ∧ n.timeWorst ≤ n.timeN)

/-- The wear rows of every knife are legal. -/
def State.RowsLegal (s : State) : Prop := ∀ k, (s.knife k).RowsLegal

/-- The error log has its five slots, a pointer of 0 to 5 and a count of 16 bits, and the request history
at most six entries (R176, R177). -/
def State.LogFits (s : State) : Prop :=
  s.cnd.log.slots.length = 5 ∧ s.cnd.log.pointer ≤ 5 ∧ s.cnd.log.count ≤ 65535 ∧
    s.cnd.history.length ≤ 6

/-- The pool reason of PRINT_HOLD stands just while the free count is below the pool reserve (R16). -/
def State.PoolReasonFollows (s : State) : Prop :=
  s.lpm.poolReason = decide (s.freePanels < s.params.g3.poolReserve)

/-- The outfeed-full flag stands just while the outfeed list holds 24 records (R54). -/
def State.OutfeedFlagFollows (s : State) : Prop :=
  s.map.outfeedFull = decide (24 ≤ s.map.outfeed.length)

/-- A safe state: every invariant holds. -/
structure State.Safe (s : State) : Prop where
  queueFits     : s.QueueFits
  backOffHeld   : s.BackOffHeld
  scalesLegal   : s.ScalesLegal
  poolsFit      : s.PoolsFit
  serialsUnique : s.SerialsUnique
  plansFit      : s.PlansFit
  entriesFit    : s.EntriesFit
  ordersFit     : s.OrdersFit
  ordersDistinct : s.OrdersDistinct
  fireListOrdered : s.FireListOrdered
  entriesMatch  : s.EntriesMatch
  idleFollows   : s.IdleFollows
  expectedFollows : s.ExpectedFollows
  settleMarked  : s.SettleMarked
  splicesFit    : s.SplicesFit
  dutyFollows   : s.DutyFollows
  configFollows : s.ConfigFollows
  rowsLegal     : s.RowsLegal
  logFits       : s.LogFits
  poolReasonFollows  : s.PoolReasonFollows
  outfeedFlagFollows : s.OutfeedFlagFollows

/-! ### Commands and their next states -/

/-- The command is answered with a next state, and `P` holds of it. -/
def Leads (i : Instr) (s : State) (P : State → Prop) : Prop := ∃ t, exec i s = .next t ∧ P t

/-- The command that carries a request, with its port and its body. -/
def Request.command : Request → Port → List Byte → Instr
  | .identify => .identify | .statusRead => .statusRead
  | .mapSeek => .mapSeek | .mapRead => .mapRead
  | .paramRead => .paramRead | .paramWrite => .paramWrite
  | .lock => .lock | .unlock => .unlock
  | .maskSet => .maskSet | .conditionTake => .conditionTake
  | .conditionPeek => .conditionPeek | .printNotice => .printNotice
  | .webSplice => .webSplice | .lineArm => .lineArm
  | .lineStart => .lineStart | .lineStop => .lineStop
  | .lineResume => .lineResume | .lineClear => .lineClear
  | .filmSplice => .filmSplice | .knifeEnable => .knifeEnable
  | .knifeDisable => .knifeDisable | .knifeReset => .knifeReset
  | .outfeedTake => .outfeedTake | .lineDrain => .lineDrain
  | .laneReacquire => .laneReacquire | .planAdd => .planAdd
  | .planWithdraw => .planWithdraw | .panelVoid => .panelVoid
  | .logRead => .logRead | .logClear => .logClear
  | .attributeRead => .attributeRead | .attributeReset => .attributeReset
  | .attributeLoad => .attributeLoad | .lockBreak => .lockBreak

/-- The body bytes of a request by Table 10-1; those of PLAN ADD follow from the mark count and the action
count that the body declares. -/
def Request.bodyBytes (body : List Byte) : Request → Nat
  | .identify | .statusRead | .mapRead | .conditionTake | .conditionPeek | .lineArm | .lineStart
  | .lineStop | .lineResume | .lineClear | .filmSplice | .lineDrain | .logClear => 0
  | .mapSeek | .lock | .unlock | .maskSet | .knifeEnable | .knifeDisable | .knifeReset
  | .outfeedTake | .laneReacquire | .logRead | .attributeRead | .attributeReset | .lockBreak => 1
  | .panelVoid => 2
  | .paramRead | .planWithdraw => 3
  | .webSplice => 4
  | .paramWrite => 7
  | .printNotice => 8
  | .attributeLoad => 10
  | .planAdd => 11 + 3 * (body.getD 6 0).toNat + 4 * (body.getD 7 0).toNat

/-! ### Frames -/

/-- Stroke `r` is stroke `old` later on: the same action and timeout, a timer that has not restarted, and
a phase that has not gone back to LEAVING (R111 to R113). -/
def Stroke.Continues (old r : Stroke) : Prop :=
  r = { old with phase := r.phase, timer := r.timer } ∧ old.timer ≤ r.timer ∧
    (old.phase = .away → r.phase = .away)

/-- Entry `e` is entry `x` later on: of the same action, held lead and arming (R92, R97). -/
def FireEntry.Continues (x e : FireEntry) : Prop :=
  e = { x with f := e.f, committed := e.committed, deadline := e.deadline }

/-- Every fire list entry of `t` is one of `s` later on: nothing has been armed in between. -/
def State.ArmsNothing (s t : State) : Prop :=
  ∀ e ∈ t.csc.fireList, ∃ x ∈ s.csc.fireList, x.Continues e

/-- A part of the state that a frame names. -/
inductive Part where
  | mot | lpm | pls | map | reg | csc | knc | ten | lnc
  | queue | masks | present | log | history
  | params | locks | framers | pending
deriving DecidableEq, Repr

/-- A part reads the same in two states. -/
def State.SamePart (s t : State) : Part → Prop
  | .mot => t.mot = s.mot
  | .lpm => t.lpm = s.lpm
  | .pls => t.pls = s.pls
  | .map => t.map = s.map
  | .reg => t.reg = s.reg
  | .csc => t.csc = s.csc
  | .knc => t.knc = s.knc
  | .ten => t.ten = s.ten
  | .lnc => t.lnc = s.lnc
  | .queue => t.cnd.queue = s.cnd.queue
  | .masks => t.cnd.masks = s.cnd.masks
  | .present => t.cnd.present = s.cnd.present
  | .log => t.cnd.log = s.cnd.log
  | .history => t.cnd.history = s.cnd.history
  | .params => t.pif.params = s.pif.params
  | .locks => t.pif.locks = s.pif.locks
  | .framers => t.pif.framers = s.pif.framers
  | .pending => t.pending = s.pending

/-- `t` is `s` but for these parts. -/
def State.SameBut (ps : List Part) (s t : State) : Prop := ∀ x, x ∉ ps → s.SamePart t x

/-- The window of Table 4-3, widened while settle remaining is above 0 (R70). -/
def LaneRec.ruledWindow (r : LaneRec) : Nat :=
  let base := match r.state with
    | .acquire => r.g1.acquireWindow
    | .track => r.g1.trackWindow
    | .coast => min r.g1.acquireWindow (r.g1.trackWindow * (1 + r.missCount))
    | .idle | .lost => 0
  if 0 < r.settleRemaining then max base (min r.g1.acquireWindow (4 * r.g1.trackWindow)) else base

/-- Lane `k` as a tension-change signal leaves it: settle remaining at the settle distance of its copy,
with settle in force (assumption 7), and the expiry of its expected mark moved with the window (R71, R83,
R84). -/
def State.settledLane (s : State) (k : Lane) : LaneRec :=
  let d := (s.lane k).g1.settleDistance
  let r : LaneRec := { s.lane k with settleRemaining := d, settling := decide (0 < d) }
  { r with expected := r.expected.map fun x =>
      { x with expiry := x.pred.plus (r.ruledWindow + 1 + s.params.value (.sensorDistance k)) } }

/-- A tension-change signal brings the window expiry of lane `k` neither to nor behind the high-water. -/
def State.SettleHoldsOn (s : State) (k : Lane) : Prop :=
  ∀ x, (s.settledLane k).expected = some x → 0 < x.expiry.diff s.mot.highWater

/-- A tension-change signal brings no window expiry to or behind the high-water. -/
def State.SettleHolds (s : State) : Prop := ∀ k, s.SettleHoldsOn k

/-- Lane `k` of `t` is in settle at this distance (R83, R84): settle remaining, the flag of assumption 7, the
window of R70 that they give, and the expiry of the expected mark by that window (R71). -/
def State.SettlesAt (s t : State) (k : Lane) (distance : Nat) : Prop :=
  (t.lane k).settleRemaining = distance ∧ (t.lane k).settling = decide (0 < distance) ∧
    (t.lane k).window = (t.lane k).ruledWindow ∧
    ∀ x, (t.lane k).expected = some x → x.expiry =
      x.pred.plus ((t.lane k).ruledWindow + 1 + s.params.value (.sensorDistance k))

/-- A tension-change signal has started settle on every lane, at the settle distance of the lane's copy of G1
(R83). -/
def State.Settled (s t : State) : Prop := ∀ k, s.SettlesAt t k (s.lane k).g1.settleDistance

/-- Several tension-change signals of one event have started settle on every lane (R83, R138): each restarts it
at the settle distance of the lane's copy as it then stands. The copy is loaded within the event only by a window
expiry that a signal brings to the high-water (R63, R71); a lane without an expected mark keeps its copy. -/
def State.Resettled (s t : State) : Prop :=
  ∀ k, s.SettlesAt t k (t.lane k).g1.settleDistance ∧
    ((t.lane k).g1 = (s.lane k).g1 ∨ (t.lane k).g1 = s.params.g1) ∧
    (s.SettleHoldsOn k → (t.lane k).g1 = (s.lane k).g1)

/-- Lane `k` is quiet: no action of its panels on the web is PENDING and no tail event of its panels has
been reached, so that neither a lane scan nor a DONE event follows from what happens to it. -/
def State.QuietLane (s : State) (k : Lane) : Prop :=
  s.pendingActions k = [] ∧ ∀ q ∈ s.seq k, s.reached q.tailEvent = false

/-! ### Replies -/

/-- A number in `n` bytes, most significant first. -/
def bigEndian : Nat → Nat → List Byte
  | 0, _ => []
  | n + 1, v => bigEndian n (v / 256) ++ [byteOf v]

/-- The body of a PRINT NOTICE (Table 10-1). -/
def noticeBody (lane : Nat) (tag : Half) (w : Word) (quality : Nat) : List Byte :=
  bigEndian 1 lane ++ bigEndian 2 tag.toNat ++ bigEndian 4 w.toNat ++ bigEndian 1 quality

/-- The bytes of a reply: code, length, body and the CRC over them (Figure 10-1, R181). -/
def replyBytes (code : Byte) (body : List Byte) : List Byte :=
  (code :: byteOf body.length :: body) ++ [crc8 (code :: byteOf body.length :: body)]

/-- Port `p` has been answered: its framer, and no other, is in REPLY with these bytes to shift out, and
the port has become present (R165, R180, R182). -/
def State.Answered (s : State) (p : Port) (code : Byte) (body : List Byte) (t : State) : Prop :=
  t.pif.framers = s.pif.framers.set p
      { cs := (s.framer p).cs, phase := .reply, out := replyBytes code body } ∧
    t.cnd.present = s.cnd.present.set p true

/-- The request has joined the request history as its newest entry (R177). -/
def State.Joined (s : State) (p : Port) (kind : Byte) (body : List Byte) (t : State) : Prop :=
  t.cnd.history = ({ port := p, kind := kind, length := byteOf body.length,
                     bytes := (body ++ [0, 0, 0, 0]).take 4, l := s.mot.l } ::
                   s.cnd.history).take 6

/-- An answered request that changed these parts and no others, beside the reply and presence. -/
def State.AnsweredOnly (s : State) (p : Port) (code : Byte) (body : List Byte) (ps : List Part)
    (t : State) : Prop :=
  s.Answered p code body t ∧ s.SameBut (.framers :: .present :: ps) t

/-- An accepted request that joined the history and changed these parts and no others. -/
def State.Performed (s : State) (p : Port) (kind : Byte) (body reply : List Byte) (ps : List Part)
    (t : State) : Prop :=
  s.Answered p 0x00 reply t ∧ s.Joined p kind body t ∧
    s.SameBut (.framers :: .present :: .history :: ps) t

/-! ### Layouts of bodies (Tables 10-5 to 10-12) -/

/-- Fields one after another, each given by its size in bytes and its value. -/
def fieldBytes (fs : List (Nat × Nat)) : List Byte := fs.flatMap fun f => bigEndian f.1 f.2

/-- A signed number in two's complement of `n` bytes. -/
def twos (n : Nat) (i : Int) : Nat := (BitVec.ofInt (8 * n) i).toNat

/-- 1 for a flag that is set and 0 otherwise. -/
def bit (b : Bool) : Nat := if b then 1 else 0

/-- The body of a refusal WRONG STATE: the kind of state named and its code (R183). -/
def namedState (kind code : Nat) : List Byte := fieldBytes [(1, kind), (1, code)]

/-- The fields of a mark in a panel record (Table 10-7). -/
def markFields (m : MarkEntry) : List (Nat × Nat) :=
  match m.status with
  | .pending => [(3, m.offset), (1, 0), (4, 0)]
  | .accepted e => [(3, m.offset), (1, 1), (4, twos 4 e)]
  | .missed => [(3, m.offset), (1, 2), (4, 0)]

/-- The fields of an action in a panel record (Table 10-7). -/
def actionFields (a : ActionEntry) : List (Nat × Nat) :=
  [(3, a.offset), (1, if a.kind = .cut then 0 else 1)] ++
    match a.status with
    | .pending => [(1, 0), (1, 0), (4, 0)]
    | .armed f => [(1, 1), (1, 0), (4, f.toNat)]
    | .committed f => [(1, 2), (1, 0), (4, f.toNat)]
    | .fired => [(1, 3), (1, 0), (4, 0)]
    | .late => [(1, 4), (1, 0), (4, 0)]
    | .missed c => [(1, 5), (1, c.code), (4, 0)]
    | .dropped => [(1, 6), (1, 0), (4, 0)]

/-- A panel record with its place, 0 lane sequence, 1 waiting list, 2 outfeed list (Table 10-7). -/
def panelReply (place : Nat) (q : Panel) : List Byte :=
  fieldBytes ([(2, q.serial.toNat), (2, q.tag.toNat), (1, laneNumber q.lane), (1, place),
    (1, q.state.code),
    (1, bit (q.quality == .spoiled) + 2 * bit q.reprintOf.isSome + 4 * bit (place == 0)),
    (1, match q.voidCause with | none => 0 | some c => c.code),
    (1, match q.disposition with | none => 0 | some d => d.code),
    (4, q.wLead.toNat), (4, q.length),
    (2, match q.reprintOf with | none => 0 | some n => n.toNat),
    (4, if place = 0 then q.leadReading.toNat else 0), (4, if place = 0 then q.tailEvent.toNat else 0),
    (1, q.marks.length), (1, q.actions.length)] ++
    q.marks.flatMap markFields ++ q.actions.flatMap actionFields)

/-- A lane byte, FFh for none. -/
def laneOrNone : Option Lane → Nat
  | none => 0xFF
  | some k => laneNumber k

/-- A condition record with the remaining number (Table 10-8). -/
def conditionReply (remaining : Nat) (r : Record) : List Byte :=
  fieldBytes ([(1, remaining), (1, r.cause.classCode), (1, r.cause.code),
    (1, bit r.backedUp + 2 * bit r.ancillary + 4 * bit r.overflow),
    (1, bit r.hasLane + 2 * bit r.hasPanel + 4 * bit r.hasPosition + 8 * bit r.hasDetail),
    (1, laneOrNone r.lane), (1, r.count), (2, r.serial.toNat), (2, r.tag.toNat),
    (4, r.position.toNat), (4, twos 4 r.detail), (1, r.secondary.length)] ++
    r.secondary.map fun c => (1, c.code))

/-- An error log entry (Table 10-11). -/
def logReply (e : LogEntry) : List Byte :=
  fieldBytes ([(1, e.cause.classCode), (1, e.cause.code), (1, laneOrNone e.lane),
    (4, e.position.toNat), (4, twos 4 e.detail), (1, e.line.code)] ++
    ([Lane.l0, .l1, .l2, .l3].flatMap fun k =>
      [(1, (e.laneStates.get k).code), (4, e.scales.get k)]) ++ [(1, e.history.length)]) ++
  e.history.flatMap fun h =>
    fieldBytes [(1, portNumber h.port)] ++ [h.kind, h.length] ++ h.bytes ++ fieldBytes [(4, h.l.toNat)]

/-- The pointer and the error count (Table 10-11). -/
def logHead (g : ErrorLog) : List Byte := fieldBytes [(1, g.pointer), (2, g.count)]

/-- The attribute rows of a knife (Table 10-12). -/
def State.attributeReply (s : State) (k : Lane) : List Byte :=
  let n := s.knife k
  fieldBytes [(1, n.state.code), (1, bit n.preFail),
    (1, 1), (3, n.strokes), (1, n.lifeN), (1, n.lifeWorst), (1, s.params.value (.lifeThreshold k)),
    (1, s.params.value (.lifeFlag k)), (1, bit n.lifeLatch),
    (1, 2), (3, match n.lastDuration with | none => 0 | some d => d), (3, n.mean), (1, n.timeN),
    (1, n.timeWorst), (1, s.params.value (.timeThreshold k)), (1, s.params.value (.timeFlag k)),
    (1, bit n.timeLatch)]

/-- The body of STATUS READ while these ports are present (Table 10-10). -/
def State.statusReply (s : State) (present : PerPort Bool) : List Byte :=
  fieldBytes ([(1, s.lnc.line.code), (1, bit s.lineStop),
    (1, match s.lnc.haltCause with | none => 0 | some c => c.code),
    (1, bit (s.standing .reverseLimit) + 2 * bit (s.standing .loopSensor) +
      4 * bit (s.standing .loopLow) + 8 * bit (s.standing .filmBreak) + 16 * bit (s.standing .filmEnd)),
    (1, bit s.lnc.configValid), (1, bit present.pp + 2 * bit present.fp + 4 * bit present.jp),
    (4, s.mot.p.toNat), (4, s.mot.l.toNat), (4, s.mot.highWater.toNat),
    (1, bit (s.mot.direction == .reverse)), (2, twos 2 s.mot.speed8), (1, s.mot.printErrors),
    (1, s.mot.lineErrors),
    (4, s.lpm.lp), (1, bit s.lpm.sampleAbsent), (1, bit s.lpm.stale), (1, bit s.printHold),
    (1, bit s.lpm.loopReason), (1, bit s.lpm.poolReason),
    (1, s.freePanels), (1, s.map.outfeed.length), (1, s.map.waiting.length), (1, s.freePlans)] ++
    ([Lane.l0, .l1, .l2, .l3].flatMap fun k => [(1, (s.lane k).state.code), (4, (s.lane k).scale),
      (1, (s.lane k).missCount), (4, (s.lane k).settleRemaining)]) ++
    ([Lane.l0, .l1, .l2, .l3].flatMap fun k => [(1, (s.knife k).state.code),
      (1, bit (s.knife k).disablePending), (1, bit (s.knife k).preFail)]) ++
    [(1, bit (s.ten.profile == .splice)), (3, match s.ten.c with | none => 0 | some c => c),
      (1, bit s.ten.measured), (3, s.ten.indexDistance), (2, s.ten.duty), (2, s.brakeLevel),
      (1, bit s.ten.filmEnd), (1, bit s.ten.filmLow), (1, s.ten.splices.length)])

/-! ### Delivery, reports and cursors -/

/-- A record is deliverable to a port (R167 to R169). -/
def Cnd.delivers (c : Cnd) (p : Port) (r : Record) : Bool :=
  match r.cause with
  | .lineDamage _ => r.owed.get p
  | .laneDamage _ => c.present.get p
  | .access _ => decide (r.bound = some p)
  | .panelLoss _ => c.present.get p && (c.masks.get p).panelLoss
  | .degradation _ => c.present.get p && (c.masks.get p).degradation
  | .planNotice _ => c.present.get p && (c.masks.get p).planNotice
  | .warning _ => c.present.get p && (c.masks.get p).warning
  | .recovery _ => c.present.get p && (c.masks.get p).recovery

/-- The condition unit once port `p` is present. -/
def State.cndWith (s : State) (p : Port) : Cnd := { s.cnd with present := s.cnd.present.set p true }

/-- These records have been placed in the condition queue, one after the other (R170). -/
def placeAll : List Record → List Record → List Record
  | [], q => q
  | r :: rs, q => placeAll rs (placeRecord r q).1

/-- An ACCESS NOTICE as the port interfaces report it (R169). -/
def State.accessNotice (s : State) (c : AccessCause) (bound : Port) (g : Group) (p : Port) : Record :=
  { newRecord (.access c) none none (some s.mot.l) (some (16 * groupNumber g + portNumber p)) with
    bound := some bound }

/-- A LINE DAMAGE record as it is placed, owed to the ports present (R156, R168, Table 8-3). -/
def State.damageRecord (s : State) (c : LineCause) (more : List LineCause) (owed : PerPort Bool) :
    Record :=
  { newRecord (.lineDamage c) none none (some s.mot.l) (some (s.causeDetail c)) with
    secondary := more, owed := owed, isOpen := true }

/-- The panels of lane `k` that MAP considers from a cursor (R59): those of the cursor's own lane, at or
ahead of its coordinate, and all those of a present lane above it. -/
def State.considered (s : State) (c : Cursor) (k : Lane) : List Panel :=
  match c with
  | .atEnd => []
  | .start j =>
    if k = j then s.residentsOf k
    else if laneNumber j < laneNumber k ∧ s.params.isPresent k = true then s.residentsOf k
    else []
  | .coordinate j w =>
    if k = j then (s.residentsOf k).filter fun q => decide (0 ≤ q.wLead.diff w)
    else if laneNumber j < laneNumber k ∧ s.params.isPresent k = true then s.residentsOf k
    else []

/-- The place of a resident panel: 0 in a lane sequence, 1 waiting, 2 on the outfeed list. -/
def State.Stands (s : State) (q : Panel) : Nat → Prop
  | 0 => q ∈ s.inLine
  | 1 => q ∈ s.map.waiting
  | 2 => q ∈ s.map.outfeed
  | _ => False

/-- The largest knife distance of a splice record (Table 7-3): over the present lanes, or over all four when
none is present. -/
def State.LargestKnife (s : State) (n : Nat) : Prop :=
  ((∃ k, s.params.isPresent k = true ∧ s.knifeAt k = n) ∧
      ∀ k, s.params.isPresent k = true → s.knifeAt k ≤ n) ∨
    ((∀ k, s.params.isPresent k = false) ∧ (∃ k, s.knifeAt k = n) ∧ ∀ k, s.knifeAt k ≤ n)

/-- The nip reading that R141 gives to a web coordinate: by lane 0 when it is not IDLE, else by the lowest
present lane that is not IDLE, else by the loop reference. -/
def State.WebNip (s : State) (w nip : Word) : Prop :=
  let live (k : Lane) : Prop :=
    (k = .l0 ∨ s.params.isPresent k = true) ∧ (s.lane k).state ≠ .idle
  (∃ k, live k ∧ (∀ j, laneNumber j < laneNumber k → ¬live j) ∧
      nip = predict (s.lane k).wref (s.lane k).lref (s.lane k).scale w) ∨
    ((∀ k, ¬live k) ∧
      nip = predict (s.mot.p.shift (-(s.lpm.lp : Int))) s.mot.l s.params.g1.nominalScale w)

/-! ### Motion, halts and strokes -/

/-- The second phase state is the forward successor of the first (Table 1-1). -/
def PhaseLeads (x y : Phase) : Prop :=
  (x, y) ∈ [(⟨false, false⟩, ⟨true, false⟩), (⟨true, false⟩, ⟨true, true⟩),
    (⟨true, true⟩, ⟨false, true⟩), ((⟨false, true⟩, ⟨false, false⟩) : Phase × Phase)]

/-- No position event is due: none is left that the high-water has reached (R7). -/
def State.NothingDue (s : State) : Prop := ∀ d : Due, s.isDue d = false

/-- No timer event is due: the staleness timer is below its limit or has been taken, every fire pulse and
every stroke timer is within its time (R12, R112, R114). -/
def State.NoTimerDue (s : State) : Prop :=
  (s.lpm.stale = true ∨ s.lpm.sinceSampleMs < 10) ∧
  ∀ k, ((s.knife k).fire = false ∨ (s.knife k).firePulseMs < 2) ∧
    ∀ r, (s.knife k).state = .stroke r → r.timer < r.timeoutMs * 100

/-- The error log has taken an entry: into the slot after the pointer, slot 1 after slot 5, with the count
saturating at 65,535 (R176). The pointer lies in 0 to 5 (State.LogFits). -/
def ErrorLog.Gains (g : ErrorLog) (e : LogEntry) (h : ErrorLog) : Prop :=
  g.pointer ≤ 5 →
    h.slots = g.slots.set (if g.pointer < 5 then g.pointer else 0) (some e) ∧
    h.pointer = (if g.pointer < 5 then g.pointer + 1 else 1) ∧
    h.count = if g.count < 65535 then g.count + 1 else 65535

/-- What a LINE DAMAGE record makes of a condition queue, step by step (R156, R168, R170): with no port
present it is not placed; in a free slot, or in the place of the oldest record of the lowest discard rank,
it becomes the open record; else it is discarded and the newest record carries OVERFLOW. -/
def DamagePlaced (r : Record) (present : PerPort Bool) (q q' : List Record) : Prop :=
  let closed := q.map fun x => { x with isOpen := false }
  ((∀ p, present.get p = false) → q' = q) ∧
  ((∃ p, present.get p = true) →
    (q.length < 32 → q' = closed ++ [r]) ∧
    (32 ≤ q.length →
      (∀ (pre post : List Record) (x : Record), q = pre ++ x :: post → x.cause.discardRank < 7 →
        (∀ y ∈ pre, x.cause.discardRank < y.cause.discardRank) →
        (∀ y ∈ post, x.cause.discardRank ≤ y.cause.discardRank) →
        q' = (pre ++ post).map (fun y => { y with isOpen := false }) ++ [{ r with overflow := true }]) ∧
      ((∀ y ∈ q, 7 ≤ y.cause.discardRank) → ∀ (init : List Record) (last : Record),
        q = init ++ [last] → q' = init ++ [{ last with overflow := true }])))

/-- One LINE DAMAGE record of these causes has been made at this state, with its error log entry, while
the line was in `line` (R155, R156, R168, R176); presence and the request history are those of `t`. -/
def State.MakesDamage (s : State) (c : LineCause) (more : List LineCause) (line : LineState)
    (t : State) : Prop :=
  s.cnd.log.Gains
    { cause := .lineDamage c, lane := none, position := s.mot.l, detail := s.causeDetail c,
      line := line, laneStates := s.reg.lanes.map (·.state),
      scales := s.reg.lanes.map (·.scale), history := t.cnd.history } t.cnd.log ∧
  DamagePlaced (s.damageRecord c more t.cnd.present) t.cnd.present s.cnd.queue t.cnd.queue

/-- A further cause has been taken while the line is HALTED (R157): nothing when the open record names it;
added to the open record's secondary causes while these are fewer than 3; else a record of its own. -/
def State.TakesFurther (s : State) (c : LineCause) (t : State) : Prop :=
  s.SameBut [.queue, .log] t ∧
  (∀ (pre post : List Record) (r : Record), s.cnd.queue = pre ++ r :: post → r.isOpen = true →
    (∀ x ∈ pre ++ post, x.isOpen = false) →
    (r.cause = .lineDamage c ∨ c ∈ r.secondary →
      t.cnd.queue = s.cnd.queue ∧ t.cnd.log = s.cnd.log) ∧
    (r.cause ≠ .lineDamage c → c ∉ r.secondary → r.secondary.length < 3 →
      t.cnd.queue = pre ++ { r with secondary := r.secondary ++ [c] } :: post ∧
        t.cnd.log = s.cnd.log) ∧
    (r.cause ≠ .lineDamage c → c ∉ r.secondary → 3 ≤ r.secondary.length →
      s.MakesDamage c [] .halted t)) ∧
  ((∀ x ∈ s.cnd.queue, x.isOpen = false) → s.MakesDamage c [] .halted t)

/-- The line, as it stands in this state, is halted by a cause that this event brings (R155, R156, R168,
R176): HALTED with the cause, D at min duty, an error log entry with the line state the line was in, and a
LINE DAMAGE record, the open record, owed to the ports present and placed only when some port is. The one
cause has no secondary causes beside it. -/
def State.Halts (s : State) (c : LineCause) (t : State) : Prop :=
  s.SameBut [.lnc, .ten, .queue, .log] t ∧
  t.lnc = { s.lnc with line := .halted, haltCause := some c } ∧
  t.ten = { s.ten with duty := s.params.value .minDuty } ∧
  s.MakesDamage c [] s.lnc.line t

/-- The condition queue after a warning's flag has gone from `was` to `now`: a record at L_now with this
detail when it comes to be set (R170), its untaken records withdrawn when it clears (R174). -/
def State.warned (s : State) (c : WarningCause) (detail : Nat) (was now : Bool) (q : List Record) :
    List Record :=
  if now = true ∧ was = false then
    placeAll [newRecord (.warning c) none none (some s.mot.l) (some detail)] q
  else if now = false ∧ was = true then
    q.filter fun r => !(r.cause == .warning c && r.lane == none)
  else q

/-- A panel whose action `i` takes a status. -/
def Panel.withAction (q : Panel) (i : Nat) (st : ActionStatus) : Panel :=
  { q with actions := q.actions.modify i fun a => { a with status := st } }

/-- Two lists of panels are the same but for the statuses of marks. -/
def SameButMarks (xs ys : List Panel) : Prop :=
  List.Forall₂ (fun x y => y = { x with marks := y.marks } ∧
    y.marks.map (·.offset) = x.marks.map (·.offset)) xs ys

/-- Every mark that had left PENDING has its status still, in whatever place its panel stands, and no mark has
moved on its panel (R40). -/
def State.MarksKept (s t : State) : Prop :=
  ∀ q ∈ s.residents, ∀ y ∈ t.residents, y.serial = q.serial →
    List.Forall₂ (fun m n => n.offset = m.offset ∧ (m.status ≠ .pending → n = m)) q.marks y.marks

/-- Every resolved action has its status still, and no action has moved on its panel or changed its kind (R41). -/
def State.ResolvedKept (s t : State) : Prop :=
  ∀ q ∈ s.residents, ∀ y ∈ t.residents, y.serial = q.serial →
    List.Forall₂ (fun a b => b.offset = a.offset ∧ b.kind = a.kind ∧ (a.status.resolved = true → b = a))
      q.actions y.actions

/-- A panel with the marks that the panel of its serial has among these. -/
def Panel.withMarksOf (old : List Panel) (q : Panel) : Panel :=
  match old.find? fun x => x.serial == q.serial with
  | some x => { q with marks := x.marks }
  | none => q

/-- A mark as the expected mark of lane `k` with the lane at `r`: its prediction and its window expiry (R64,
R71). -/
def State.expectOn (s : State) (k : Lane) (r : LaneRec) (m : Half × Nat × Word) : Expected :=
  let pred := predict r.wref r.lref r.scale m.2.2
  { serial := m.1, index := m.2.1, w := m.2.2, pred := pred,
    expiry := pred.plus (r.window + 1 + s.params.value (.sensorDistance k)) }

/-- Lane `k` of `t` has taken its expected mark among the panels of its sequence, whose marks were those of
`old`: in ACQUIRE, TRACK and COAST the first PENDING mark on the web, in web order, whose window expiry lies ahead
of the high-water (R68), every one before it having passed unobserved and being MISSED (R69); in IDLE and LOST
none. Every other mark is as in `old`. -/
def State.Observes (s : State) (k : Lane) (old : List Panel) (t : State) : Prop :=
  let r := t.lane k
  let ps := (t.seq k).map (Panel.withMarksOf old)
  let ms : List Expected :=
    if r.state = .idle ∨ r.state = .lost then [] else (marksOnWeb ps).map (s.expectOn k r)
  let behind (x : Expected) : Bool := decide (x.expiry.diff s.mot.highWater ≤ 0)
  let passed := ms.takeWhile behind
  r.expected = (ms.dropWhile behind).head? ∧
  (t.seq k).map (·.marks) = ps.map fun y => y.marks.mapIdx fun i m =>
    if passed.any (fun x => x.serial == y.serial && x.index == i) then { m with status := .missed } else m

/-- A panel with the status of one mark set. -/
def Panel.withMark (q : Panel) (i : Nat) (st : MarkStatus) : Panel :=
  { q with marks := q.marks.modify i fun m => { m with status := st } }

/-- These panels with the status of one mark of the panel of a serial set. -/
def withMark (ps : List Panel) (n : Half) (i : Nat) (st : MarkStatus) : List Panel :=
  ps.map fun q => if q.serial = n then q.withMark i st else q

/-- A panel with another panel state. -/
def Panel.inState (q : Panel) (st : PanelState) : Panel := { q with state := st }

/-- An action not yet committed: PENDING or ARMED. -/
def ActionStatus.early : ActionStatus → Bool
  | .pending | .armed _ => true
  | .committed _ | .fired | .late | .missed _ | .dropped => false

/-- The fire list entry of an action of lane `k` leaves the list. -/
def State.without (s : State) (k : Lane) (e : FireEntry) : List FireEntry :=
  s.csc.fireList.filter fun x => !(x.lane == k && x.serial == e.serial && x.index == e.index)

/-- The action of entry `e` of panel `q` in lane `k` misses with a cause (R106): its entry leaves the fire
list, the panel takes void cause `v` if it had none, with its PANEL LOSS record (R46, R47), and nothing else
changes. For LINE DAMAGE the panel's uncommitted PERF actions are dropped with their entries (R48). -/
def State.Misses (s : State) (k : Lane) (q : Panel) (e : FireEntry) (c : MissCause) (v : VoidCause)
    (t : State) : Prop :=
  let drops := v = .lineDamage ∧ q.voidCause = none
  let missed := q.withAction e.index (.missed c)
  s.SameBut [.map, .csc, .queue] t ∧
  t.csc = { s.csc with
    fireList := (s.without k e).filter fun x => !(decide drops && x.lane == k &&
      x.serial == e.serial && x.kind == .perf && !x.committed) } ∧
  t.map = { s.map with seqs := s.map.seqs.set k ((s.seq k).map fun x =>
    if x = q then
      { missed with
        voidCause := some (q.voidCause.getD v)
        actions := missed.actions.map fun a =>
          if drops ∧ a.kind = .perf ∧ a.status.early = true then { a with status := .dropped } else a }
    else x) } ∧
  t.cnd.queue = if q.voidCause = none then
      placeAll [{ newRecord (.panelLoss v) (some k) (some (q.serial, q.tag)) (some s.mot.l)
          (some (e.index : Int)) with
        backedUp := missed.actions.all fun a => !(a.status == .fired || a.status == .late)
        ancillary := v == .lineDamage || v == .regLost }] s.cnd.queue
    else s.cnd.queue

/-- The DONE event of panel `q`, with `rest` the other panels of its lane (R45, R49, R52, R54, R66, R154,
Table 3-5): the finished panel on the outfeed list, or on the waiting list while that is full, the
outfeed-full flag with its warning, an emptied lane IDLE, and an emptied line ending a drain; the lane's expected
mark is taken among the rest (R68, R69). -/
def State.Finishes (s : State) (k : Lane) (rest : List Panel) (q : Panel) (t : State) : Prop :=
  let disposition : Disposition :=
    if ∀ a ∈ q.actions, a.status ≠ .fired ∧ a.status ≠ .late then .uncut
    else if q.voidCause ≠ none then .void
    else if q.quality = .spoiled then .spoiled else .good
  let final : Panel := { q with
    state := .done, disposition := some disposition,
    marks := q.marks.map fun m => if m.status = .pending then { m with status := .missed } else m }
  let room := decide (s.map.outfeed.length < 24)
  t.map = { s.map with
    seqs := s.map.seqs.set k (t.seq k),
    outfeed := if room = true then s.map.outfeed ++ [final] else s.map.outfeed,
    waiting := if room = true then s.map.waiting else s.map.waiting ++ [final],
    outfeedFull := decide (23 ≤ s.map.outfeed.length) } ∧
  SameButMarks rest (t.seq k) ∧
  (s.ExpectedFollows → s.ExpiryAhead k → s.Observes k rest t) ∧
  t.reg = { lanes := s.reg.lanes.set k (if rest = [] then
    { s.lane k with state := .idle, missCount := 0, expected := none }
    else { s.lane k with expected := (t.lane k).expected }) } ∧
  t.cnd.queue = s.warned .outfeedFull 0 s.map.outfeedFull
    (decide (23 ≤ s.map.outfeed.length)) s.cnd.queue ∧
  (t.inLine = [] → s.lnc.line = .drain →
    s.SameBut [.map, .reg, .queue, .lnc, .ten] t ∧ t.lnc = { s.lnc with line := .ready } ∧
    t.ten = { s.ten with duty := s.computedDuty }) ∧
  (t.inLine ≠ [] ∨ s.lnc.line ≠ .drain → s.SameBut [.map, .reg, .queue] t)

/-- The tension unit as one line advance counts it (R8, R134; the watch is assumption 8): the index
distance one count further, saturating, and FILM BREAK due where that exceeds the timeout, unless its event
has been taken outside RUN and DRAIN. -/
def State.countedTen (s : State) : Ten :=
  let n := min 16777215 (s.ten.indexDistance + 1)
  { s.ten with
    indexDistance := n
    breakWatch :=
      if s.params.value .indexTimeout < n then
        if s.ten.breakWatch = .held ∧ s.lnc.line.running = false then .held else .due
      else .clear }

/-! ### Splices -/

/-- The panel, not yet voided, overlaps a splice region (R142). -/
def State.hitBy (s : State) (lower upper : Word) (k : Lane) (q : Panel) : Bool :=
  decide (q.leadReading.diff upper ≤ 0) && q.voidCause.isNone &&
    decide (0 ≤ (q.tailEvent.shift (-(s.params.value (.knifeDistance k) : Int))).diff lower)

/-- The panels of R142, in lane order and within a lane in web order. -/
def State.spliceHits (s : State) (lower upper : Word) : List (Lane × Panel) :=
  [Lane.l0, .l1, .l2, .l3].flatMap fun k =>
    ((s.seq k).filter (s.hitBy lower upper k)).map fun q => (k, q)

/-- The voids of a splice entry on panel map, fire list and condition queue, where none of them lets
another event follow (R142, R46 to R48): every panel hit takes SPLICE and loses its uncommitted PERF
actions with their entries, and has a PANEL LOSS record at the nip reading, the first of them without
ANCILLARY. -/
def State.SpliceVoids (s : State) (nip lower upper : Word) (queue : List Record) (t : State) : Prop :=
  let hits := s.spliceHits lower upper
  t.map = { s.map with seqs := t.map.seqs } ∧
  (∀ k, t.seq k = (s.seq k).map fun q => if s.hitBy lower upper k q = true then
      { q with
        voidCause := some .splice
        actions := q.actions.map fun a =>
          if a.kind = .perf ∧ a.status.early = true then { a with status := .dropped } else a }
    else q) ∧
  t.csc = { s.csc with fireList := s.csc.fireList.filter fun e =>
    !(e.kind == .perf && !e.committed && hits.any fun h => h.1 == e.lane && h.2.serial == e.serial) } ∧
  t.cnd.queue = placeAll (hits.mapIdx fun i h =>
    { newRecord (.panelLoss .splice) (some h.1) (some (h.2.serial, h.2.tag)) (some nip) none with
      backedUp := h.2.actions.all fun a => !(a.status == .fired || a.status == .late)
      ancillary := decide (0 < i) }) queue

/-- No panel that came to carry SPLICE keeps an uncommitted PERF action (R142, R48). -/
def State.SplicedHaveNoPerfs (s t : State) : Prop :=
  ∀ q ∈ s.inLine, q.voidCause = none → ∀ y ∈ t.residents, y.serial = q.serial →
    y.voidCause = some .splice → ∀ a ∈ y.actions, a.kind = .perf → a.status.early = false

/-! ### Recovery counting -/

/-- The recovery counter of a lane after one more RECOVERY report, by its degradation threshold (R89). -/
def counted (threshold n : Nat) : Nat := if threshold ≤ n + 1 then 0 else n + 1

/-- The LANE RECOVERY RATE record of lane `k` (R89). -/
def State.rateRecord (s : State) (k : Lane) (threshold : Nat) : Record :=
  newRecord (.degradation .laneRecoveryRate) (some k) none (some s.mot.l) (some (threshold : Int))

/-- Records of one lane, each RECOVERY report among them counted from a counter of `n` and followed at once by the
LANE RECOVERY RATE record where the count reaches the threshold (R89). -/
def State.rated (s : State) (k : Lane) (threshold : Nat) : Nat → List Record → List Record
  | _, [] => []
  | n, x :: xs =>
    match x.cause with
    | .recovery _ =>
      x :: (if threshold ≤ n + 1 then [s.rateRecord k threshold] else []) ++
        s.rated k threshold (counted threshold n) xs
    | _ => x :: s.rated k threshold n xs

/-! ### The hand-on of a reference -/

/-- The fire position of an entry of lane `k` on the reference and scale of `r` (R93, R99). -/
def State.newFire (s : State) (k : Lane) (r : LaneRec) (e : FireEntry) : Word :=
  (predict r.wref r.lref r.scale ((s.entryPoint k e).getD 0)).shift
    ((s.params.value (.knifeDistance k) : Int) - e.heldLead)

/-- An entry as the hand-on of `r` to lane `k` leaves it, while no fire event follows (R99): ARMED entries
take their new place, and are COMMITTED within 300 counts of the high-water. -/
def State.revised (s : State) (k : Lane) (r : LaneRec) (e : FireEntry) : FireEntry :=
  if e.lane = k ∧ e.committed = false then
    { e with
      f := s.newFire k r e
      committed := decide ((s.newFire k r e).diff s.mot.highWater ≤ 300) }
  else e

/-- The deviation of a COMMITTED entry (R100). -/
def State.deviation (s : State) (k : Lane) (r : LaneRec) (e : FireEntry) : Int :=
  (s.newFire k r e).diff e.f

/-- The COMMITTED entries of lane `k`, in fire list order. -/
def State.committedOf (s : State) (k : Lane) : List FireEntry :=
  s.csc.fireList.filter fun e => e.lane == k && e.committed

/-- The deviation of an entry exceeds the deviation limit (R100). -/
def State.strays (s : State) (k : Lane) (r : LaneRec) (e : FireEntry) : Bool :=
  decide ((s.params.value .deviationLimit : Int) < |s.deviation k r e|)

/-- The records of the assessments of R100, in fire list order: CUT DEVIATION beyond the cut tolerance,
and the PANEL LOSS of a panel first voided beyond the deviation limit. -/
def State.deviationRecords (s : State) (k : Lane) (r : LaneRec) : List Record :=
  (s.committedOf k).zipIdx.flatMap fun x =>
    let e := x.1
    match s.findPanel k e.serial with
    | none => []
    | some q =>
      (if (s.params.value .cutTolerance : Int) < |s.deviation k r e| then
        [newRecord (.recovery .cutDeviation) (some k) (some (q.serial, q.tag)) (some s.mot.l)
          (some (s.deviation k r e))] else []) ++
      (if s.strays k r e && q.voidCause.isNone &&
          !((s.committedOf k).take x.2).any (fun y => y.serial == e.serial && s.strays k r y) then
        [{ newRecord (.panelLoss .deviation) (some k) (some (q.serial, q.tag)) (some s.mot.l)
            (some (e.index : Int)) with
          backedUp := q.actions.all fun a => !(a.status == .fired || a.status == .late) }] else [])

/-- A panel as the hand-on of `r` to lane `k` leaves it, while it enters no other state and no fire event
follows (R42, R99, R100). -/
def State.revisedPanel (s : State) (k : Lane) (r : LaneRec) (q : Panel) : Panel :=
  { q with
    leadReading := predict r.wref r.lref r.scale q.wLead
    tailEvent := (predict r.wref r.lref r.scale (q.wLead.plus q.length)).plus
      (s.params.value (.knifeDistance k))
    voidCause := if (s.committedOf k).any (fun e => e.serial == q.serial && s.strays k r e) then
      some (q.voidCause.getD .deviation) else q.voidCause
    actions := q.actions.mapIdx fun i a =>
      match s.csc.fireList.find? fun e =>
          e.lane == k && e.serial == q.serial && e.index == i && !e.committed with
      | some e =>
        let f := s.newFire k r e
        { a with status := if f.diff s.mot.highWater ≤ 300 then .committed f else .armed f }
      | none => a }
/-- The fire position of an action of a panel of lane `k` on the reference and scale of `r`, with the lead that
stands now (R92, R93). -/
def State.fireOn (s : State) (k : Lane) (r : LaneRec) (q : Panel) (a : ActionEntry) : Word :=
  (predict r.wref r.lref r.scale (q.wLead.plus a.offset)).shift
    ((s.params.value (.knifeDistance k) : Int) - s.leadNow k)

/-! ### The loss of a lane and its new start -/

/-- The ARMED entries of lane `k`, in fire list order. -/
def State.armedOf (s : State) (k : Lane) : List FireEntry :=
  s.csc.fireList.filter fun e => e.lane == k && !e.committed

/-- The fire list without the ARMED entries of lane `k` (R107). -/
def State.disarmedList (s : State) (k : Lane) : List FireEntry :=
  s.csc.fireList.filter fun e => !(e.lane == k && !e.committed)

/-- The PANEL LOSS record of a panel of lane `k` that takes REG LOST by the miss of its action `i` (R85, R47). -/
def State.lostRecord (s : State) (k : Lane) (q : Panel) (i : Nat) : Record :=
  { newRecord (.panelLoss .regLost) (some k) (some (q.serial, q.tag)) (some s.mot.l) (some (i : Int)) with
    backedUp := q.actions.all fun a => !(a.status == .fired || a.status == .late)
    ancillary := true }

/-- The PANEL LOSS records of the loss of lane `k`: one for each panel of an ARMED entry that carried no void
cause, at the first such entry in fire list order (R85, R46, R47, R107). -/
def State.lostRecords (s : State) (k : Lane) : List Record :=
  (s.armedOf k).zipIdx.flatMap fun x =>
    match s.findPanel k x.1.serial with
    | none => []
    | some q =>
      if q.voidCause.isNone && !((s.armedOf k).take x.2).any (fun y => y.serial == q.serial) then
        [s.lostRecord k q x.1.index] else []

/-- A panel as the loss of lane `k` leaves it, while no other action of it misses: the actions of its ARMED
entries MISSED, REG LOST, and with them its void cause (R85, R107). -/
def State.lostPanel (s : State) (k : Lane) (q : Panel) : Panel :=
  { q with
    voidCause := if (s.armedOf k).any (fun e => e.serial == q.serial) then
      some (q.voidCause.getD .regLost) else q.voidCause
    actions := q.actions.mapIdx fun i a =>
      if (s.armedOf k).any (fun e => e.serial == q.serial && e.index == i) then
        { a with status := .missed .regLost } else a }

/-- A panel as LANE REACQUIRE leaves it with the lane at `r`, while no action of it misses: its ARMED actions
PENDING again, its predictions and its state by the loop reference, and the void of R100 (R88, R42, R43). -/
def State.reacquired (s : State) (k : Lane) (r : LaneRec) (q : Panel) : Panel :=
  let lead := predict r.wref r.lref r.scale q.wLead
  { q with
    leadReading := lead
    tailEvent := (predict r.wref r.lref r.scale (q.wLead.plus q.length)).plus
      (s.params.value (.knifeDistance k))
    state := if q.state = .loop ∧ lead.diff s.mot.highWater ≤ 0 then .web else q.state
    voidCause := (s.revisedPanel k r q).voidCause
    actions := q.actions.map fun a =>
      match a.status with
      | .armed _ => { a with status := .pending }
      | _ => a }

/-- How many COMMITTED entries of lane `k` deviate by more than the cut tolerance (R100). -/
def State.deviations (s : State) (k : Lane) (r : LaneRec) : Nat :=
  (s.committedOf k).countP fun e => decide ((s.params.value .cutTolerance : Int) < |s.deviation k r e|)

end Sys2Proof.Machine
end

