-- ==== Sys2Proof/WellFormed.lean ====
section
/-! DEFINITION. Well-formed commands: those that an event at the ports or lines can spell. A body fits
its length byte (R180), a FRAME_ERROR carries a CRC byte that is not the frame's (R181), the kind of
an UNKNOWN_REQUEST is not in Table 10-1 (R182), and the duration a HOME_RETURN carries is a count of
the stroke timer (R113). -/

namespace Sys2Proof

/-- A frame's body fits the length byte n, 0..255 (R180). -/
def bodyFits (body : List Byte) : Bool := decide (body.length ≤ 255)

/-- Whether the command is one that the part can meet. -/
def Instr.wellFormed : Instr → Bool
  | .frameError _ kind body crc => bodyFits body && !(crc == Machine.frameCrc kind body)
  | .unknownRequest _ kind body => bodyFits body && (Machine.Request.ofKind kind).isNone
  | .identify _ b | .statusRead _ b | .mapSeek _ b | .mapRead _ b | .paramRead _ b
  | .paramWrite _ b | .lock _ b | .unlock _ b | .lockBreak _ b | .maskSet _ b
  | .conditionTake _ b | .conditionPeek _ b | .printNotice _ b | .webSplice _ b
  | .filmSplice _ b | .lineArm _ b | .lineStart _ b | .lineStop _ b | .lineDrain _ b
  | .lineResume _ b | .lineClear _ b | .knifeEnable _ b | .knifeDisable _ b | .knifeReset _ b
  | .outfeedTake _ b | .laneReacquire _ b | .planAdd _ b | .planWithdraw _ b | .panelVoid _ b
  | .logRead _ b | .logClear _ b | .attributeRead _ b | .attributeReset _ b
  | .attributeLoad _ b => bodyFits b
  | .homeReturn _ d => decide (1 ≤ d ∧ d ≤ 100000)
  | .powerOnReset _ | .pinReset _ | .csRelease _ | .csAssertion _ | .replyComplete _
  | .printEdge _ | .lineEdge _ | .timebaseTick | .loopSample _ | .loopStale | .markEdge _
  | .windowExpiry _ | .settleEnd _ | .leadEvent _ | .tailEvent _ | .commit _ | .fireEvent _
  | .deadline _ | .firePulseEnd _ | .homeLeave _ | .strokeTimeout _ | .indexPulse | .filmBreak
  | .splicePassage | .retirement | .loopRxCharacter _ _ => true

end Sys2Proof
end

