-- ==== Sys2Proof/Certificates/Slice0/Obligations.lean ====
section
/-! DEFINITION. The statements about the WR-4 model that the provers take. Each docstring names the rules of
spec/ that its statement formalises; where a clause rests on a choice of the model, the log entry. -/

open Sys2Proof Sys2Proof.Machine

/-! ### The step, the resets and the invariants -/

/-- The command at the front of the queue is carried out with the queue's rest; with none waiting the part
idles (the idling is assumption 1). -/
def Obligations.StepTakesTheFrontCommand : Prop :=
  (∀ (c : Instr) (rest : List Instr) (s : State), s.pending = c :: rest →
    step s = exec c (s.withPending rest)) ∧
  ∀ s : State, s.pending = [] → step s = .next s

/-- Every command is answered with a next state, in every state, and leaves the commands that wait. That they
wait, and that a reset too leaves them, is the model's choice of assumption 1. -/
def Obligations.EveryCommandCompletes : Prop :=
  ∀ (i : Instr) (s : State), Leads i s fun t => t.pending = s.pending

/-- Power-on reset and pin reset have one effect, that of 0.4.8: every block takes its reset values
(Tables 1-6, 4-1, 6-2, 7-1, 10-4; R18, R31, R37, R57, R90, R111, R147, R162 to R177, R180, R190), and every
parameter its default (R186). The model's own choices: the waiting commands are kept (assumption 1), and the
number of armings is 0 (assumptions 15 and 36). -/
def Obligations.ResetsRestoreEveryBlock : Prop :=
  ∀ (pins : PinLevels) (s : State), ∃ t, exec (.powerOnReset pins) s = .next t ∧
    exec (.pinReset pins) s = .next t ∧ t.pending = s.pending ∧
    (t.mot.printPhase = pins.printChannels ∧ t.mot.linePhase = pins.lineChannels ∧ t.mot.p = 0 ∧
      t.mot.l = 0 ∧ t.mot.highWater = 0 ∧ t.mot.direction = .forward ∧ t.mot.printErrors = 0 ∧
      t.mot.lineErrors = 0 ∧ t.mot.history = List.replicate 9 0 ∧ t.mot.speed8 = 0) ∧
    (t.lpm.lp = 0 ∧ t.lpm.sampleAbsent = true ∧ t.lpm.stale = true ∧ t.lpm.lowStop = false ∧
      t.lpm.lowWarning = false ∧ t.lpm.loopReason = true ∧ t.lpm.highWarning = false ∧
      t.lpm.poolReason = false ∧ t.printHold = true) ∧
    ((∀ k, t.plans k = []) ∧ t.pls.serial = 0 ∧ t.freePlans = 64) ∧
    ((∀ k, t.seq k = []) ∧ t.map.waiting = [] ∧ t.map.outfeed = [] ∧ t.map.outfeedFull = false ∧
      t.freePanels = 96 ∧ ∀ p, t.map.cursors.get p = .start .l0) ∧
    (∀ k, (t.lane k).state = .idle ∧ (t.lane k).wref = 0 ∧ (t.lane k).lref = 0 ∧
      (t.lane k).scale = 1000000 ∧ (t.lane k).missCount = 0 ∧ (t.lane k).settleRemaining = 0 ∧
      (t.lane k).strayCount = 0 ∧ (t.lane k).recovery = 0 ∧ (t.lane k).g1 = t.params.g1) ∧
    t.csc.fireList = [] ∧ t.csc.armings = 0 ∧
    (∀ k, (t.knife k).home = (match k with
        | .l0 => pins.home0 | .l1 => pins.home1 | .l2 => pins.home2 | .l3 => pins.home3) ∧
      (t.knife k).state = (if (t.knife k).home then .ready else .fault) ∧
      (t.knife k).disablePending = false ∧ (t.knife k).fire = false ∧
      (t.knife k).depthHigh = false ∧ (t.knife k).strokes = 0 ∧ (t.knife k).lastDuration = none ∧
      (t.knife k).mean = t.params.g4.nominalStrokeTime ∧ (t.knife k).lifeN = 253 ∧
      (t.knife k).lifeWorst = 253 ∧ (t.knife k).timeN = 253 ∧ (t.knife k).timeWorst = 253 ∧
      (t.knife k).lifeLatch = false ∧ (t.knife k).timeLatch = false ∧ (t.knife k).preFail = false) ∧
    (t.ten.profile = .normal ∧ t.ten.c = none ∧ t.ten.measured = false ∧ t.ten.indexDistance = 0 ∧
      t.ten.duty = t.params.g2.minDuty ∧ t.brakeLevel = t.params.g2.minDuty ∧
      t.ten.filmEnd = false ∧ t.ten.filmLow = false ∧ t.ten.splices = []) ∧
    (t.lnc.line = .offline ∧ t.lnc.haltCause = none ∧ t.lnc.configValid = true ∧
      t.lineStop = true) ∧
    (t.cnd.queue = [] ∧ (∀ p, t.cnd.masks.get p = ⟨true, true, true, false, false⟩) ∧
      (∀ p, t.cnd.present.get p = false) ∧ (∀ p, t.attention p = false) ∧
      t.cnd.log = ⟨List.replicate 5 none, 0, 0⟩ ∧ t.cnd.history = []) ∧
    (∀ p, (t.framer p).phase = .wait) ∧ (∀ g, t.pif.locks.get g = none) ∧
    t.params = .defaults ∧ t.params.value .nominalScale = 1000000 ∧ t.params.value .lanePresent = 15 ∧
    t.params.value .highLimit = 38000 ∧ t.params.value .strokeTimeout = 250

/-- Every reset state is safe, whatever the pin levels, and so is the state right after reset. -/
def Obligations.ResetStatesAreSafe : Prop :=
  (∀ pins, (State.resetWith pins).Safe) ∧ State.reset.Safe

/-- R171: the condition queue never holds more than 32 records; R176, R177: the error log and the request
history keep their sizes. -/
def Obligations.StepKeepsQueueAndLog : Prop :=
  ∀ s t : State, step s = .next t →
    (s.QueueFits → t.QueueFits) ∧ (s.LogFits → t.LogFits)

/-- R6: the back-off is held below 2^24 counts. R77: every lane's S lies within 980,000 to 1,030,000 inclusive,
in every state. R121 to R123: N of a wear row lies in 1..253 and worst is never better than N. R83, R84: while
settle remaining of a lane is above 0 its settle is in force (the flag settling is assumption 7). -/
def Obligations.StepKeepsFiguresInRange : Prop :=
  ∀ s t : State, step s = .next t →
    (s.BackOffHeld → t.BackOffHeld) ∧ (s.ScalesLegal → t.ScalesLegal) ∧ (s.RowsLegal → t.RowsLegal) ∧
    (s.SettleMarked → t.SettleMarked)

/-- R37, R52, R53: resident records never exceed 96 and the outfeed list never exceeds 24, and the waiting
list holds records only while the outfeed list is full. R31: serials are unique among resident panels. R54,
R16: the outfeed-full flag and the pool reason of PRINT_HOLD follow the counts. R18: plan records never
exceed 64. -/
def Obligations.StepKeepsPools : Prop :=
  ∀ s t : State, step s = .next t →
    (s.PoolsFit → t.PoolsFit) ∧ (s.SerialsUnique → t.SerialsUnique) ∧
    (s.OutfeedFlagFollows → t.OutfeedFlagFollows) ∧
    (s.SerialsUnique → s.PoolReasonFollows → t.PoolReasonFollows) ∧ (s.PlansFit → t.PlansFit)

/-- R91: the fire list never holds more than 3 entries of one lane. R137, R139: up to 4 splice records, and the
profile is SPLICE while there is one. R90: every entry was armed before the next arming, and no two at one (the
numbers of arming are assumption 36); and the list stays in its order, ascending F by its distance ahead of the
high-water and for equal F by arming, where no distance lies at the far end of the signed range of 0.4.3, which one
count of the high-water would turn over. -/
def Obligations.StepKeepsListBounds : Prop :=
  ∀ s t : State, step s = .next t →
    (s.EntriesFit → t.EntriesFit) ∧ (s.SplicesFit → t.SplicesFit) ∧ (s.OrdersFit → t.OrdersFit) ∧
    (s.OrdersFit → s.OrdersDistinct → t.OrdersDistinct) ∧
    (s.OrdersFit → s.OrdersDistinct → s.BackOffHeld → s.FiresInReach → s.FireListOrdered →
      t.FireListOrdered)

/-- R68, R64: in ACQUIRE, TRACK and COAST the expected mark is the earliest PENDING mark of the lane's panels in WEB
and CUTTING, in web order, with the prediction of the lane's reference and scale, and none where there is no such
mark; a lane in IDLE or LOST has none. R66: a lane is IDLE just while its sequence is empty. R40: a mark that has
left PENDING keeps its status, in whatever place its panel stands. R41: so does a resolved action. R90, R91, R97,
R98: every fire list entry stands for an action of a panel in WEB or CUTTING of its lane, of the entry's kind, ARMED
while the entry is ARMED and COMMITTED while it is COMMITTED, with the entry's fire position; and no two entries
stand for one action. -/
def Obligations.StepKeepsEntriesAndExpectedMarks : Prop :=
  ∀ s t : State, step s = .next t → s.SerialsUnique →
    (s.EntriesMatch → t.EntriesMatch ∧ s.ResolvedKept t) ∧
    (s.IdleFollows → s.ExpectedFollows → t.IdleFollows ∧ t.ExpectedFollows ∧ s.MarksKept t)

/-- R133: in READY, RUN and DRAIN, D is the computed duty; in OFFLINE and HALTED, D is min duty. R149: the
configuration-valid flag is set just when every check of Table 8-2 passes. -/
def Obligations.StepKeepsDutyAndConfigFlag : Prop :=
  ∀ s t : State, step s = .next t →
    (s.DutyFollows → t.DutyFollows) ∧ (s.ConfigFollows → t.ConfigFollows)

/-- R101: no stroke begins while the line is in OFFLINE, READY or HALTED: a knife in STROKE after a step was in
the same stroke before it, of the same action, timeout and kind, its timer no less. R109: while the back-off is
positive CSC arms nothing: every fire list entry after a step was one before it, of the same action, held lead and
arming. -/
def Obligations.NoStrokeOutsideRunNoArmingInBackOff : Prop :=
  ∀ s t : State, step s = .next t →
    (s.lnc.line.running = false → ∀ (k : Lane) (r : Stroke), (t.knife k).state = .stroke r →
      ∃ old, (s.knife k).state = .stroke old ∧ old.Continues r) ∧
    (0 < s.backOff → s.ArmsNothing t)

/-- Figure 3-2: a panel does not return to LOOP. -/
def Obligations.PanelsNeverReturnToLoop : Prop :=
  ∀ (s t : State) (k : Lane) (q : Panel), s.SerialsUnique → q ∈ s.seq k → q.state ≠ .loop →
    step s = .next t → ∀ x ∈ t.seq k, x.serial = q.serial → x.state ≠ .loop

/-- R38: a panel record leaves the pool only through OUTFEED TAKE, LINE CLEAR or a reset. -/
def Obligations.RecordsLeaveThePoolOnlyThere : Prop :=
  ∀ (i : Instr) (s t : State) (q : Panel), i.wellFormed = true → s.SerialsUnique →
    q ∈ s.residents → exec i s = .next t → (∀ x ∈ t.residents, x.serial ≠ q.serial) →
    (∃ b, i = .outfeedTake .fp b) ∨ (∃ b, i = .lineClear .fp b) ∨
      (∃ pins, i = .powerOnReset pins ∨ i = .pinReset pins)

/-- R188: a parameter group locked by one port is never changed by a write arriving on another port; nor is
it changed by any other command but a reset. -/
def Obligations.LockedGroupsAreNotChanged : Prop :=
  ∀ (i : Instr) (s t : State) (q : Param) (h : Port), i.wellFormed = true →
    s.pif.locks.get q.group = some h → (∀ b, i ≠ .paramWrite h b) →
    (∀ pins, i ≠ .powerOnReset pins ∧ i ≠ .pinReset pins) → exec i s = .next t →
    t.params.value q = s.params.value q


/-! ### The ports -/

/-- R180 with the frames of this model whole (assumption 5): an assertion of chip select takes a framer from
WAIT to KIND, a release takes it to WAIT from any phase, and the end of a reply takes it from REPLY to TRAIL.
The bytes of a frame with n body bytes take it from KIND through LENGTH, BODY (none with n = 0) and CHECK to
REPLY; it shifts out 00h while it receives, then the reply bytes, then FFh. Outside KIND a request, or a frame,
reaches nothing. -/
def Obligations.PortLinesMoveTheFramer : Prop :=
  ∀ (p : Port) (s : State),
    Leads (.csAssertion p) s (fun t => s.SameBut [.framers] t ∧
      t.pif.framers = s.pif.framers.set p
        (if (s.framer p).cs = true then s.framer p
         else { s.framer p with
           cs := true, phase := if (s.framer p).phase = .wait then .kind else (s.framer p).phase })) ∧
    Leads (.csRelease p) s (fun t => s.SameBut [.framers] t ∧
      t.pif.framers = s.pif.framers.set p { cs := false, phase := .wait, out := [] }) ∧
    Leads (.replyComplete p) s (fun t => s.SameBut [.framers] t ∧
      t.pif.framers = s.pif.framers.set p
        (if (s.framer p).phase = .reply then { s.framer p with phase := .trail, out := [] }
         else s.framer p)) ∧
    (∀ n : Nat, FramerPhase.kind.after n 0 = .kind ∧ FramerPhase.kind.after n 1 = .length ∧
      (∀ j, 2 ≤ j → j < n + 2 → FramerPhase.kind.after n j = .body) ∧
      FramerPhase.kind.after n (n + 2) = .check ∧ FramerPhase.kind.after n (n + 3) = .reply) ∧
    (∀ (f : Framer) (i : Nat),
      (f.phase = .wait → f.shiftsOut i = none) ∧
      (f.phase ∈ [FramerPhase.kind, .length, .body, .check] → f.shiftsOut i = some 0x00) ∧
      (∀ b, f.phase = .reply → f.out[i]? = some b → f.shiftsOut i = some b) ∧
      (f.phase = .trail ∨ f.phase = .reply ∧ f.out.length ≤ i → f.shiftsOut i = some 0xFF)) ∧
    (s.receiving p = false → ∀ (r : Request) (body : List Byte) (kind crc : Byte),
      exec (r.command p body) s = .next s ∧ exec (.frameError p kind body crc) s = .next s ∧
        exec (.unknownRequest p kind body) s = .next s)

/-- R181: the CRC-8 of a frame runs over kind, length and body, from 00h, with the polynomial
x^8 + x^2 + x + 1 (07h), each byte most significant bit first and nothing inverted at the end: a byte is folded in
and eight turns shift the register left, 07h being folded in where a one leaves; IDENTIFY's is 15h. A frame with a
wrong CRC byte is answered FRAME ERROR and makes no port present. R182, steps 2 and
3: an unknown kind is answered UNKNOWN REQUEST, and a request that Table 10-1 does not give to the port NOT
PERMITTED; the reply to a line request then names the line state (R148, R183, assumption 13). -/
def Obligations.FramesRefusedBeforeTheirRule : Prop :=
  (let turn (r : Byte) : Byte := if r.getLsbD 7 = true then (r <<< 1) ^^^ 0x07 else r <<< 1
   crc8 [] = 0x00 ∧
   (∀ (bs : List Byte) (b : Byte), crc8 (bs ++ [b]) =
      turn (turn (turn (turn (turn (turn (turn (turn (crc8 bs ^^^ b))))))))) ∧
   (∀ (kind : Byte) (body : List Byte),
      frameCrc kind body = crc8 ([kind, BitVec.ofNat 8 body.length] ++ body)) ∧
   crc8 [0x01] = 0x07 ∧ frameCrc 0x01 [] = 0x15) ∧
  ∀ (p : Port) (body : List Byte) (s : State), s.receiving p = true →
    (∀ kind crc, crc ≠ frameCrc kind body → Leads (.frameError p kind body crc) s fun t =>
      s.SameBut [.framers] t ∧ t.pif.framers = s.pif.framers.set p
        { cs := (s.framer p).cs, phase := .reply, out := replyBytes 0x01 [] }) ∧
    (∀ kind, Request.ofKind kind = none → Leads (.unknownRequest p kind body) s
      (s.AnsweredOnly p 0x02 [] [])) ∧
    ∀ r : Request, r.allowed p = false → Leads (r.command p body) s
      (s.AnsweredOnly p 0x03 (if r.isLine then fieldBytes [(1, s.lnc.line.code)] else []) [])

/-- R182 and Table 10-1: a body whose length is not that of the table is refused BAD ARGUMENT and changes
nothing, and so is a body whose first byte names a lane or knife above 3 or a group above 4 (R23, R25, R55,
R58, R87, R116, R125, R190 to R192). The reply to a line request names the line state (assumption 13). -/
def Obligations.MalformedBodiesAreRefused : Prop :=
  ∀ (r : Request) (p : Port) (body : List Byte) (s : State), s.receiving p = true →
    r.allowed p = true →
    (body.length ≠ r.bodyBytes body ∨
      (3 < (body.headD 0).toNat ∧ r ∈ [Request.mapSeek, .printNotice, .knifeEnable, .knifeDisable,
        .knifeReset, .outfeedTake, .laneReacquire, .planAdd, .planWithdraw, .attributeRead,
        .attributeReset, .attributeLoad]) ∨
      (4 < (body.headD 0).toNat ∧ r ∈ [Request.lock, .unlock, .lockBreak])) →
    Leads (r.command p body) s
      (s.AnsweredOnly p 0x04 (if r.isLine then fieldBytes [(1, s.lnc.line.code)] else []) [])

/-- Table 10-1: the kind byte of every request and the ports that may send it (PP, FP, JP), and no other kind
byte names a request. Table 10-5: the codes of line, lane and knife state, panel state, void cause, disposition,
mark and action status, miss cause and class. Table 9-2: the cause codes, 1 upward within each class. The numbers
of ports (R184), lanes and knives, and groups. -/
def Obligations.CodesFollowTheTables : Prop :=
  (Request.all.map fun r => (r.kind.toNat, r.allowed .pp, r.allowed .fp, r.allowed .jp)) =
    [(0x01, true, true, true), (0x02, true, true, true), (0x03, true, true, true),
     (0x04, true, true, true), (0x05, true, true, true), (0x06, true, true, true),
     (0x07, true, true, true), (0x08, true, true, true), (0x09, true, true, true),
     (0x0A, true, true, true), (0x0B, true, true, true),
     (0x10, true, false, false), (0x11, true, false, false),
     (0x20, false, true, false), (0x21, false, true, false), (0x22, false, true, false),
     (0x23, false, true, false), (0x24, false, true, false), (0x25, false, true, false),
     (0x26, false, true, false), (0x27, false, true, false), (0x28, false, true, false),
     (0x29, false, true, false), (0x30, false, true, true), (0x31, false, true, true),
     (0x40, false, false, true), (0x41, false, false, true), (0x42, false, false, true),
     (0x43, false, false, true), (0x44, false, false, true), (0x45, false, false, true),
     (0x46, false, false, true), (0x47, false, false, true), (0x48, false, false, true)] ∧
  (∀ r : Request, r ∈ Request.all) ∧
  (∀ (r : Request) (kind : Byte), Request.ofKind kind = some r ↔ r.kind = kind) ∧
  [LineState.offline, .ready, .run, .drain, .halted].map LineState.code = [0, 1, 2, 3, 4] ∧
  [LaneState.idle, .acquire, .track, .coast, .lost].map LaneState.code = [0, 1, 2, 3, 4] ∧
  (∀ r : Stroke, [KnifeState.ready, .stroke r, .fault, .disabled].map KnifeState.code = [0, 1, 2, 3]) ∧
  [PanelState.loop, .web, .cutting, .done].map PanelState.code = [0, 1, 2, 3] ∧
  [VoidCause.splice, .requested, .missedCut, .deviation, .lineDamage, .regLost, .jog].map
    VoidCause.code = [1, 2, 3, 4, 5, 6, 7] ∧
  [Disposition.good, .spoiled, .void, .uncut].map Disposition.code = [1, 2, 3, 4] ∧
  (∀ e : Int, [MarkStatus.pending, .accepted e, .missed].map MarkStatus.code = [0, 1, 2]) ∧
  (∀ (f : Word) (c : MissCause), [ActionStatus.pending, .armed f, .committed f, .fired, .late,
    .missed c, .dropped].map ActionStatus.code = [0, 1, 2, 3, 4, 5, 6]) ∧
  [MissCause.tooLateToArm, .notRegistered, .knifeBusy, .knifeUnavailable, .jog, .lineDamage,
    .regLost].map MissCause.code = [1, 2, 3, 4, 5, 6, 7] ∧
  [ActionKind.cut, .perf].map ActionKind.code = [0, 1] ∧
  [LineCause.reverseLimit, .loopSensor, .loopLow, .filmBreak, .filmEnd].map LineCause.code =
    [1, 2, 3, 4, 5] ∧
  ([Cause.lineDamage .reverseLimit, .lineDamage .loopSensor, .lineDamage .loopLow,
      .lineDamage .filmBreak, .lineDamage .filmEnd, .laneDamage .regLost, .laneDamage .knifeTimeout,
      .panelLoss .splice, .panelLoss .requested, .panelLoss .missedCut, .panelLoss .deviation,
      .panelLoss .lineDamage, .panelLoss .regLost, .panelLoss .jog,
      .degradation .laneRecoveryRate, .degradation .knifeWear,
      .planNotice .unplannedPrint, .planNotice .planSkipped, .planNotice .mapCleared,
      .warning .loopLow, .warning .loopHigh, .warning .filmLow, .warning .outfeedFull,
      .recovery .encoderPhase, .recovery .strayMarks, .recovery .stretchLimit,
      .recovery .markReacquired, .recovery .cutDeviation, .recovery .cutLate,
      .access .lockRefused, .access .writeRefused, .access .lockBroken].map
    fun c => (c.classCode, c.code)) =
    [(1, 1), (1, 2), (1, 3), (1, 4), (1, 5), (2, 1), (2, 2),
     (3, 1), (3, 2), (3, 3), (3, 4), (3, 5), (3, 6), (3, 7), (4, 1), (4, 2), (5, 1), (5, 2), (5, 3),
     (6, 1), (6, 2), (6, 3), (6, 4), (7, 1), (7, 2), (7, 3), (7, 4), (7, 5), (7, 6),
     (8, 1), (8, 2), (8, 3)] ∧
  [Port.pp, .fp, .jp].map portNumber = [0, 1, 2] ∧
  [Lane.l0, .l1, .l2, .l3].map laneNumber = [0, 1, 2, 3] ∧
  [Group.g0, .g1, .g2, .g3, .g4].map groupNumber = [0, 1, 2, 3, 4]

/-- R177: a request that is answered ACCEPTED joins the request history as its newest entry, the oldest of six
leaving, but for the nine requests that R177 names; and a refused one does not join it. R165: a frame with a
correct CRC makes its port present, and no command but a reset ends a presence. -/
def Obligations.FramesEnterHistoryAndPresence : Prop :=
  (∀ (r : Request) (p : Port) (body : List Byte) (s t : State), s.receiving p = true →
    exec (r.command p body) s = .next t →
    (if (t.framer p).out.head? = some 0x00 ∧ r ∉ [Request.identify, .statusRead, .mapSeek, .mapRead,
        .paramRead, .conditionTake, .conditionPeek, .logRead, .attributeRead]
      then s.Joined p r.kind body t else t.cnd.history = s.cnd.history) ∧
    t.cnd.present = s.cnd.present.set p true) ∧
  ∀ (i : Instr) (s t : State) (p : Port), (∀ pins, i ≠ .powerOnReset pins ∧ i ≠ .pinReset pins) →
    exec i s = .next t → s.cnd.present.get p = true → t.cnd.present.get p = true

/-- R184: IDENTIFY is accepted on any port and changes nothing; its ten bytes. -/
def Obligations.IdentifyTellsThePart : Prop :=
  ∀ (p : Port) (s : State), s.receiving p = true →
    Leads (.identify p []) s (s.AnsweredOnly p 0x00
      [0x0B, 0x04, 1, 4, 96, 64, 24, 16, 32, match p with | .pp => 0 | .fp => 1 | .jp => 2] [])

/-- R185, Table 10-10: STATUS READ is accepted on any port, changes nothing, and its reply of 103 bytes holds
the fields of the table, the port itself being present by its frame (R165). The levels of PRINT_HOLD and LINE_STOP
and the standing conditions in it are those of LinesAndStandingConditionsFollowTheState, where that of FILM BREAK
follows a write to the index timeout at once (assumption 37); its codes are those of CodesFollowTheTables. -/
def Obligations.StatusReadTellsEveryBlock : Prop :=
  (∀ (p : Port) (s : State), s.receiving p = true →
    Leads (.statusRead p []) s
      (s.AnsweredOnly p 0x00 (s.statusReply (s.cnd.present.set p true)) [])) ∧
  ∀ (s : State) (present : PerPort Bool), (s.statusReply present).length = 103

/-- R58: MAP SEEK sets the port's cursor to the start of the named lane, in every line state and whether or
not the lane is present, with no body in the reply; a lane above 3 or another length is refused. R59, R60: MAP READ
returns the panel with the least W_lead among those that the cursor considers in the first lane where it considers
any, and moves the cursor past it; with none left the reply is EMPTY and the cursor is at the end. -/
def Obligations.MapSeekAndReadWalkTheMap : Prop :=
  ∀ (p : Port) (s : State), s.receiving p = true →
    (∀ (b : Byte) (k : Lane), b.toNat = laneNumber k → Leads (.mapSeek p [b]) s fun t =>
      s.AnsweredOnly p 0x00 [] [.map] t ∧
        t.map = { s.map with cursors := s.map.cursors.set p (.start k) }) ∧
    (∀ body : List Byte, body.length ≠ 1 ∨ 3 < (body.headD 0).toNat →
      Leads (.mapSeek p body) s (s.AnsweredOnly p 0x04 [] [])) ∧
    (s.SerialsUnique → ∀ (k : Lane) (q : Panel) (place : Nat), q.lane = k → s.Stands q place →
      q ∈ s.considered (s.map.cursors.get p) k →
      (∀ x ∈ s.considered (s.map.cursors.get p) k, x ≠ q → 0 < x.wLead.diff q.wLead) →
      (∀ j, laneNumber j < laneNumber k → s.considered (s.map.cursors.get p) j = []) →
      Leads (.mapRead p []) s fun t => s.AnsweredOnly p 0x00 (panelReply place q) [.map] t ∧
        t.map = { s.map with cursors := s.map.cursors.set p (.coordinate k (q.wLead + 1)) }) ∧
    ((∀ k, s.considered (s.map.cursors.get p) k = []) → Leads (.mapRead p []) s fun t =>
      s.AnsweredOnly p 0x12 [] [.map] t ∧
        t.map = { s.map with cursors := s.map.cursors.set p .atEnd })

/-! ### Parameters and locks -/

/-- Table 10-4: for every group and item, whether it has one value per lane or knife, its default and its
range, whatever the store holds; the deviation limit's range begins at the cut tolerance that the store holds at the
test (R186, R188), and a threshold leaves 254 out (R120). -/
def Obligations.ParametersHaveTheirRangesAndDefaults : Prop :=
  (∀ row ∈ [
      (0, 0, true, 4000, 500, 60000), (0, 1, true, 6000, 1500, 80000), (0, 2, false, 500, 100, 5000),
      (0, 3, false, 2000, 500, 20000), (0, 4, false, 15, 0, 15),
      (1, 0, false, 400, 50, 2000), (1, 1, false, 30, 5, 500), (1, 2, false, 3, 1, 7),
      (1, 3, false, 60000, 10000, 500000), (1, 4, false, 4, 1, 16),
      (1, 5, false, 2000, 500, 20000), (1, 6, false, 1000000, 980000, 1030000),
      (1, 7, false, 20000, 0, 100000), (1, 8, false, 8, 1, 255),
      (2, 0, false, 1600, 0, 4095), (2, 1, false, 1200, 0, 4095), (2, 2, false, 200, 0, 4095),
      (2, 3, false, 3600, 0, 4095), (2, 4, false, 18850, 1000, 60000),
      (2, 5, false, 2400, 0, 60000), (2, 6, false, 3000, 0, 60000), (2, 7, false, 0, 0, 1),
      (2, 8, false, 40000, 1000, 1000000),
      (3, 0, false, 1000, 0, 60000), (3, 1, false, 40000, 0, 400000),
      (3, 2, false, 2000, 0, 100000), (3, 3, false, 5000, 0, 100000),
      (3, 4, false, 38000, 0, 100000), (3, 5, false, 2000, 0, 100000), (3, 6, false, 4, 1, 16),
      (4, 0, true, 12000, 0, 20000), (4, 1, false, 250, 20, 1000), (4, 2, false, 20, 5, 200),
      (4, 3, false, 50, 20, 500), (4, 4, false, 2000, 1500, 50000),
      (4, 5, false, 500000, 1, 16777215), (4, 6, false, 800, 1, 100000),
      (4, 7, true, 10, 0, 255), (4, 8, true, 10, 0, 255), (4, 9, true, 1, 0, 1),
      (4, 10, true, 0, 0, 1)],
    ∀ index : Nat, match paramOf row.1 row.2.1 index with
      | some q => (if row.2.2.1 then index ≤ 3 else index = 0) ∧ groupNumber q.group = row.1 ∧
          State.reset.params.value q = row.2.2.2.1 ∧
          ∀ (ps : Params) (v : Int), ps.inRange q v = true ↔
            ((if row.1 = 4 ∧ row.2.1 = 3 then ps.value .cutTolerance
              else row.2.2.2.2.1 : Nat) : Int) ≤ v ∧ v ≤ (row.2.2.2.2.2 : Int) ∧
              ¬(row.1 = 4 ∧ (row.2.1 = 7 ∨ row.2.1 = 8) ∧ v = 254)
      | none => ¬(if row.2.2.1 then index ≤ 3 else index = 0)) ∧
  ∀ group item index : Nat,
    (4 < group ∨ (group, item) ∉ [(0, 0), (0, 1), (0, 2), (0, 3), (0, 4), (1, 0), (1, 1), (1, 2),
      (1, 3), (1, 4), (1, 5), (1, 6), (1, 7), (1, 8), (2, 0), (2, 1), (2, 2), (2, 3), (2, 4), (2, 5),
      (2, 6), (2, 7), (2, 8), (3, 0), (3, 1), (3, 2), (3, 3), (3, 4), (3, 5), (3, 6), (4, 0), (4, 1),
      (4, 2), (4, 3), (4, 4), (4, 5), (4, 6), (4, 7), (4, 8), (4, 9), (4, 10)]) →
    paramOf group item index = none

/-- R187: PARAM READ returns group, item and index as sent with the value that the store holds, whatever the
lock table holds, and changes nothing. R188: PARAM WRITE is judged by form, lock, state and range, in this
order, the range being that of ParametersHaveTheirRangesAndDefaults: so a deviation limit below the cut tolerance
that the store holds, whatever it is, is refused, and a cut tolerance above the deviation limit is accepted; a
refused write leaves the store, an accepted one puts the new value in the place of the old and changes no other
parameter, and the configuration-valid flag is evaluated (R149). -/
def Obligations.ParametersAreReadAndWritten : Prop :=
  ∀ (p : Port) (g i n : Byte) (v : Word) (s : State), s.receiving p = true →
    (∀ body : List Byte, body.length ≠ 3 →
      Leads (.paramRead p body) s (s.AnsweredOnly p 0x04 [] [])) ∧
    (∀ body : List Byte, body.length ≠ 7 →
      Leads (.paramWrite p body) s (s.AnsweredOnly p 0x04 [] [])) ∧
    (paramOf g.toNat i.toNat n.toNat = none →
      Leads (.paramRead p [g, i, n]) s (s.AnsweredOnly p 0x04 [] []) ∧
      Leads (.paramWrite p ([g, i, n] ++ bigEndian 4 v.toNat)) s (s.AnsweredOnly p 0x04 [] [])) ∧
    ∀ q : Param, paramOf g.toNat i.toNat n.toNat = some q →
      Leads (.paramRead p [g, i, n]) s
        (s.AnsweredOnly p 0x00 ([g, i, n] ++ bigEndian 4 (s.params.value q)) []) ∧
      (∀ h, s.pif.locks.get q.group = some h → h ≠ p →
        Leads (.paramWrite p ([g, i, n] ++ bigEndian 4 v.toNat)) s fun t =>
          s.AnsweredOnly p 0x05 [] [.queue] t ∧
            t.cnd.queue = placeAll [s.accessNotice .writeRefused h q.group p] s.cnd.queue) ∧
      (s.pif.locks.get q.group = none ∨ s.pif.locks.get q.group = some p →
        (q.group = .g0 → s.lnc.line ≠ .offline →
          Leads (.paramWrite p ([g, i, n] ++ bigEndian 4 v.toNat)) s
            (s.AnsweredOnly p 0x06 (namedState 1 s.lnc.line.code) [])) ∧
        (¬(q.group = .g0 ∧ s.lnc.line ≠ .offline) → s.params.inRange q v.toInt = false →
          Leads (.paramWrite p ([g, i, n] ++ bigEndian 4 v.toNat)) s (s.AnsweredOnly p 0x04 [] [])) ∧
        (¬(q.group = .g0 ∧ s.lnc.line ≠ .offline) → s.params.inRange q v.toInt = true →
          Leads (.paramWrite p ([g, i, n] ++ bigEndian 4 v.toNat)) s fun t =>
            s.Answered p 0x00 ([g, i, n] ++ bigEndian 4 v.toNat) t ∧
            s.Joined p 0x06 ([g, i, n] ++ bigEndian 4 v.toNat) t ∧
            (t.params.value q : Int) = v.toInt ∧
            (∀ x, x ≠ q → t.params.value x = s.params.value x) ∧
            t.lnc.configValid = t.params.firstFailure.isNone) ∧
        (q = .deviationLimit → s.params.inRange q v.toInt =
          decide ((s.params.value .cutTolerance : Int) ≤ v.toInt ∧ v.toInt ≤ 500)) ∧
        (q = .cutTolerance → s.params.inRange q v.toInt = decide (5 ≤ v.toInt ∧ v.toInt ≤ 200)))

/-- R189: what an accepted write hands on. Beside the store, the reply and the history (R177), the
configuration-valid flag alone is evaluated (R149), for every parameter. For G2 the brake duty is computed anew
(R133). For a base duty written in RUN or DRAIN settle starts on every lane (R138, R83; the flag settling is
assumption 7); where that brings no window expiry to the high-water, nothing else changes, and where it does,
the expiries follow in the same event (R71), which leave every lane's reference, scale and counts of strays and
recoveries, and may end a drain (R154). For the pool reserve the pool reason follows (R16). -/
def Obligations.WritesAreHandedOn : Prop :=
  ∀ (p : Port) (g i n : Byte) (v : Word) (q : Param) (s : State), s.receiving p = true →
    paramOf g.toNat i.toNat n.toNat = some q →
    (s.pif.locks.get q.group = none ∨ s.pif.locks.get q.group = some p) →
    ¬(q.group = .g0 ∧ s.lnc.line ≠ .offline) → s.params.inRange q v.toInt = true →
    Leads (.paramWrite p ([g, i, n] ++ bigEndian 4 v.toNat)) s fun t =>
      let written : List Part := [.framers, .present, .history, .params, .lnc]
      let lnc : Lnc := { s.lnc with configValid := t.params.firstFailure.isNone }
      if q = .normalBase ∨ q = .spliceBase then
        t.ten = { s.ten with duty := t.wantedDuty } ∧
        (if s.lnc.line = .run ∨ s.lnc.line = .drain then
          s.SameBut (written ++ [Part.ten, .reg, .map, .csc, .queue, .log]) t ∧ s.Settled t ∧
          (∀ k, (t.lane k).wref = (s.lane k).wref ∧ (t.lane k).lref = (s.lane k).lref ∧
            (t.lane k).scale = (s.lane k).scale ∧ (t.lane k).strayCount = (s.lane k).strayCount ∧
            (t.lane k).recovery = (s.lane k).recovery) ∧
          (t.lnc = lnc ∨ s.lnc.line = .drain ∧ t.inLine = [] ∧ t.lnc = { lnc with line := .ready }) ∧
          (s.SettleHolds → s.SameBut (written ++ [Part.ten, .reg]) t ∧ t.lnc = lnc ∧
            ∀ k, t.lane k = s.settledLane k)
         else s.SameBut (written ++ [Part.ten]) t ∧ t.lnc = lnc)
      else if q.group = .g2 then
        t.ten = { s.ten with duty := t.wantedDuty } ∧ t.lnc = lnc ∧ s.SameBut (written ++ [Part.ten]) t
      else if q = .poolReserve then
        t.lpm = { s.lpm with poolReason := decide ((s.freePanels : Int) < v.toInt) } ∧ t.lnc = lnc ∧
        s.SameBut (written ++ [Part.lpm]) t
      else t.lnc = lnc ∧ s.SameBut written t

/-- R190: LOCK of a free group, or of one that the port holds, makes the port its holder; a group held by
another port is refused LOCKED with a LOCK REFUSED notice to the holder (R169). -/
def Obligations.LockTakesAFreeGroup : Prop :=
  ∀ (p : Port) (b : Byte) (g : Group) (s : State), s.receiving p = true → b.toNat = groupNumber g →
    (s.pif.locks.get g = none ∨ s.pif.locks.get g = some p → Leads (.lock p [b]) s fun t =>
      s.Performed p 0x07 [b] [] [.locks] t ∧ t.pif.locks = s.pif.locks.set g (some p)) ∧
    ∀ h, s.pif.locks.get g = some h → h ≠ p → Leads (.lock p [b]) s fun t =>
      s.AnsweredOnly p 0x05 [] [.queue] t ∧
        t.cnd.queue = placeAll [s.accessNotice .lockRefused h g p] s.cnd.queue

/-- R191: UNLOCK frees a group that the port holds, and is refused WRONG STATE, with no record, for a group
that is free or held by another port. R192: LOCK BREAK frees a held group, by any port, with a LOCK BROKEN
notice to the former holder of detail 16 × group + 2, and is refused WRONG STATE for a free group. Both
refuse a body of another length and a group above 4. -/
def Obligations.UnlockAndBreakFreeAGroup : Prop :=
  (∀ (p : Port) (s : State), s.receiving p = true →
    (∀ body : List Byte, body.length ≠ 1 ∨ 4 < (body.headD 0).toNat →
      Leads (.unlock p body) s (s.AnsweredOnly p 0x04 [] [])) ∧
    ∀ (b : Byte) (g : Group), b.toNat = groupNumber g →
      (s.pif.locks.get g = some p → Leads (.unlock p [b]) s fun t =>
        s.Performed p 0x08 [b] [] [.locks] t ∧ t.pif.locks = s.pif.locks.set g none) ∧
      (s.pif.locks.get g ≠ some p → Leads (.unlock p [b]) s (s.AnsweredOnly p 0x06 [] []))) ∧
  ∀ s : State, s.receiving .jp = true →
    (∀ body : List Byte, body.length ≠ 1 ∨ 4 < (body.headD 0).toNat →
      Leads (.lockBreak .jp body) s (s.AnsweredOnly .jp 0x04 [] [])) ∧
    ∀ (b : Byte) (g : Group), b.toNat = groupNumber g →
      (∀ h, s.pif.locks.get g = some h → Leads (.lockBreak .jp [b]) s fun t =>
        s.Performed .jp 0x48 [b] [] [.locks, .queue] t ∧ t.pif.locks = s.pif.locks.set g none ∧
        t.cnd.queue = placeAll
          [{ newRecord (.access .lockBroken) none none (some s.mot.l)
              (some (16 * groupNumber g + 2)) with bound := some h }] s.cnd.queue) ∧
      (s.pif.locks.get g = none → Leads (.lockBreak .jp [b]) s (s.AnsweredOnly .jp 0x06 [] []))

/-! ### Conditions and the error log -/

/-- R166: MASK SET replaces the mask of the requesting port as a whole, bit 0 PANEL LOSS to bit 4 RECOVERY,
and answers the new mask; a body that names another class is refused and leaves the masks. -/
def Obligations.MaskSetReplacesTheMask : Prop :=
  ∀ (p : Port) (b : Byte) (s : State), s.receiving p = true →
    (b.toNat < 32 → Leads (.maskSet p [b]) s fun t =>
      s.Performed p 0x09 [b] [b] [.masks] t ∧
      t.cnd.masks = s.cnd.masks.set p
        { panelLoss := b.getLsbD 0, degradation := b.getLsbD 1, planNotice := b.getLsbD 2,
          warning := b.getLsbD 3, recovery := b.getLsbD 4 }) ∧
    (32 ≤ b.toNat → Leads (.maskSet p [b]) s (s.AnsweredOnly p 0x04 [] []))

/-- R167 to R169, R173: a port's attention line is asserted just while a record of the queue is deliverable to
it by the rule of the record's class. R17: PRINT_HOLD is asserted just while the loop reason or the pool reason is
set. R147: LINE_STOP is asserted just while the line is OFFLINE or HALTED. Table 8-3: when each standing condition
holds, and the detail that its record takes; FILM BREAK stands while the index distance exceeds the timeout that the
store holds (that it follows a write to the timeout at once, before the next line advance, is assumption 37). The
standing conditions, in the order of the table, are those of STATUS READ, LINE START, LINE DRAIN and LINE RESUME. -/
def Obligations.LinesAndStandingConditionsFollowTheState : Prop :=
  ∀ s : State,
    (∀ p, s.attention p = true ↔ ∃ r ∈ s.cnd.queue, s.cnd.delivers p r = true) ∧
    (s.printHold = true ↔ s.lpm.loopReason = true ∨ s.lpm.poolReason = true) ∧
    (s.lineStop = true ↔ s.lnc.line = .offline ∨ s.lnc.line = .halted) ∧
    (let backOff := s.mot.highWater.diff s.mot.l
     (s.standing .reverseLimit = true ↔ (s.params.value .reverseLimit : Int) < backOff) ∧
     (s.standing .loopSensor = true ↔ s.lpm.stale = true) ∧
     (s.standing .loopLow = true ↔ s.lpm.lowStop = true) ∧
     (s.standing .filmBreak = true ↔ s.params.value .indexTimeout < s.ten.indexDistance) ∧
     (s.standing .filmEnd = true ↔ s.ten.filmEnd = true) ∧
     s.causeDetail .reverseLimit = backOff ∧ s.causeDetail .loopSensor = s.lpm.sinceSampleMs ∧
     s.causeDetail .loopLow = s.lpm.lp ∧ s.causeDetail .filmBreak = s.ten.indexDistance ∧
     ∀ c, s.ten.c = some c → s.causeDetail .filmEnd = c) ∧
    s.standingCauses =
      [LineCause.reverseLimit, .loopSensor, .loopLow, .filmBreak, .filmEnd].filter s.standing

/-- R171: CONDITION TAKE returns, of the records deliverable to the port, the oldest of the highest take rank,
with the number that stay deliverable; a LINE DAMAGE record stays while a port is still owed it (R168), any
other leaves the queue. R172: CONDITION PEEK returns the same and changes nothing. With none deliverable both
reply EMPTY with a remaining number of 0; both refuse a body. The codes of class and cause in the reply are those of
CodesFollowTheTables. -/
def Obligations.TakeAndPeekSelectOneRecord : Prop :=
  ∀ (p : Port) (s : State), s.receiving p = true →
    (∀ body : List Byte, body ≠ [] →
      Leads (.conditionTake p body) s (s.AnsweredOnly p 0x04 [] []) ∧
      Leads (.conditionPeek p body) s (s.AnsweredOnly p 0x04 [] [])) ∧
    (∀ (pre post : List Record) (r : Record), s.cnd.queue = pre ++ r :: post →
      (s.cndWith p).delivers p r = true →
      (∀ x ∈ pre, (s.cndWith p).delivers p x = true → x.cause.takeRank < r.cause.takeRank) →
      (∀ x ∈ post, (s.cndWith p).delivers p x = true → x.cause.takeRank ≤ r.cause.takeRank) →
      let reply := conditionReply ((pre ++ post).countP ((s.cndWith p).delivers p)) r
      (Leads (.conditionTake p []) s fun t => s.AnsweredOnly p 0x00 reply [.queue] t ∧
        ((∃ c x, r.cause = .lineDamage c ∧ x ≠ p ∧ r.owed.get x = true) →
          t.cnd.queue = pre ++ { r with owed := r.owed.set p false } :: post) ∧
        (¬(∃ c x, r.cause = .lineDamage c ∧ x ≠ p ∧ r.owed.get x = true) →
          t.cnd.queue = pre ++ post)) ∧
      Leads (.conditionPeek p []) s (s.AnsweredOnly p 0x00 reply [])) ∧
    ((∀ r ∈ s.cnd.queue, (s.cndWith p).delivers p r = false) →
      Leads (.conditionTake p []) s (s.AnsweredOnly p 0x12 [0] []) ∧
      Leads (.conditionPeek p []) s (s.AnsweredOnly p 0x12 [0] []))

/-- R164, R170: a record is merged into one of its class, cause and lane if it is a RECOVERY or a WARNING;
else it takes a free slot; else it discards the oldest record of the lowest discard rank below its own and
carries OVERFLOW; else it is discarded and the newest record carries OVERFLOW. The ranks. -/
def Obligations.PlacementTakesTheFirstStepThatApplies : Prop :=
  (∀ (r x : Record) (pre post : List Record), r.cause.merges = true → x.cause = r.cause →
    x.lane = r.lane → (∀ y ∈ pre, ¬(y.cause = r.cause ∧ y.lane = r.lane)) →
    (placeRecord r (pre ++ x :: post)).1 =
      pre ++ { x with count := if x.count < 255 then x.count + 1 else 255 } :: post) ∧
  (∀ (r : Record) (q : List Record),
    (r.cause.merges = false ∨ ∀ y ∈ q, ¬(y.cause = r.cause ∧ y.lane = r.lane)) →
    (q.length < 32 → (placeRecord r q).1 = q ++ [r]) ∧
    (32 ≤ q.length →
      (∀ (pre post : List Record) (x : Record), q = pre ++ x :: post →
        x.cause.discardRank < r.cause.discardRank →
        (∀ y ∈ pre, x.cause.discardRank < y.cause.discardRank) →
        (∀ y ∈ post, x.cause.discardRank ≤ y.cause.discardRank) →
        (placeRecord r q).1 = pre ++ post ++ [{ r with overflow := true }]) ∧
      (∀ (init : List Record) (last : Record), q = init ++ [last] →
        (∀ y ∈ q, r.cause.discardRank ≤ y.cause.discardRank) →
        (placeRecord r q).1 = init ++ [{ last with overflow := true }]))) ∧
  (∀ (c1 : LineCause) (c2 : LaneCause) (c3 : VoidCause) (c4 : DegradationCause) (c5 : PlanCause)
      (c6 : WarningCause) (c7 : RecoveryCause) (c8 : AccessCause),
    (Cause.merges (.recovery c7) = true ∧ Cause.merges (.warning c6) = true ∧
      ∀ c, c ∈ [Cause.lineDamage c1, .laneDamage c2, .panelLoss c3, .degradation c4, .planNotice c5,
        .access c8] → c.merges = false) ∧
    ([Cause.lineDamage c1, .laneDamage c2, .access c8, .panelLoss c3, .degradation c4, .planNotice c5,
      .warning c6, .recovery c7].map Cause.takeRank).Pairwise (· > ·) ∧
    ([Cause.lineDamage c1, .laneDamage c2, .panelLoss c3, .degradation c4, .planNotice c5, .warning c6,
      .recovery c7].map Cause.discardRank).Pairwise (· > ·) ∧
    Cause.discardRank (.access c8) = Cause.discardRank (.recovery c7))

/-- R178: LOG READ of slot 0 tells the pointer, the error count and the number of entries held; of slots 1 to
5 the entry, or EMPTY with the pointer and the count; a slot above 5 and another length are refused; nothing
changes. R179: LOG CLEAR empties every slot, sets pointer and count to 0, joins the history, and changes
neither the queue nor the history otherwise; a body is refused. -/
def Obligations.LogIsReadAndCleared : Prop :=
  ∀ s : State, s.receiving .jp = true →
    (∀ body : List Byte, body.length ≠ 1 ∨ 5 < (body.headD 0).toNat →
      Leads (.logRead .jp body) s (s.AnsweredOnly .jp 0x04 [] [])) ∧
    (∀ n : Nat, (s.cnd.log.slots.filter Option.isSome).length = n →
      Leads (.logRead .jp [0]) s
        (s.AnsweredOnly .jp 0x00 (logHead s.cnd.log ++ fieldBytes [(1, n)]) [])) ∧
    (∀ (b : Byte) (i : Nat), b.toNat = i + 1 → i < 5 →
      (∀ e : LogEntry, s.cnd.log.slots[i]? = some (some e) → Leads (.logRead .jp [b]) s
        (s.AnsweredOnly .jp 0x00 (logHead s.cnd.log ++ logReply e) [])) ∧
      ((∀ e : LogEntry, s.cnd.log.slots[i]? ≠ some (some e)) → Leads (.logRead .jp [b]) s
        (s.AnsweredOnly .jp 0x12 (logHead s.cnd.log) []))) ∧
    (∀ body : List Byte, body ≠ [] → Leads (.logClear .jp body) s (s.AnsweredOnly .jp 0x04 [] [])) ∧
    Leads (.logClear .jp []) s fun t => s.Performed .jp 0x44 [] [] [.log] t ∧
      t.cnd.log = { slots := [none, none, none, none, none], pointer := 0, count := 0 }

/-! ### Plans and print notices -/

/-- Table 10-6: the body that carries a plan is read back as that plan, whatever its fields within their
sizes, and a body that is read as a plan is the body that carries it; so no byte of a PLAN ADD is dropped. -/
def Obligations.PlanBodiesRoundTrip : Prop :=
  (∀ q : PlanBody, q.lane < 256 → q.length < 16777216 → q.indication < 256 →
    q.marks.length < 256 → q.actions.length < 256 → (∀ m ∈ q.marks, m < 16777216) →
    (∀ a ∈ q.actions, a.1 < 16777216 ∧ a.2 < 256) → planBody q.bytes = some q) ∧
  (∀ (b : List Byte) (q : PlanBody), planBody b = some q → q.bytes = b) ∧
  ∀ b : List Byte, planBody b = none ↔
    b.length ≠ 11 + 3 * (b.getD 6 0).toNat + 4 * (b.getD 7 0).toNat

/-- R21, R22 and Table 2-2: PLAN ADD refuses a plan that any row of the table names, then a tag that stands in
the lane's queue, then a plan for which no record is free; otherwise the plan joins the end of its lane's
queue. -/
def Obligations.PlanAddChecksAndQueues : Prop :=
  ∀ (q : PlanBody) (k : Lane) (s : State), s.receiving .jp = true → planBody q.bytes = some q →
    q.lane = laneNumber k →
    let fits : Prop := s.params.isPresent k = true ∧ 1000 ≤ q.length ∧ q.length ≤ 600000 ∧
      1 ≤ q.marks.length ∧ q.marks.length ≤ 8 ∧ 1 ≤ q.actions.length ∧ q.actions.length ≤ 6 ∧
      (∀ a ∈ q.actions, a.2 = 0 ∨ a.2 = 1) ∧ (∀ m ∈ q.marks, m ≤ q.length) ∧
      (∀ a ∈ q.actions, a.1 ≤ q.length) ∧
      (∀ i x y, q.marks[i]? = some x → q.marks[i + 1]? = some y → x + 500 ≤ y) ∧
      (∀ i x y, q.actions[i]? = some x → q.actions[i + 1]? = some y →
        x.1 + s.params.value .minimumCutSpacing ≤ y.1) ∧
      (∀ m a, q.marks.head? = some m → q.actions.head? = some a → m < a.1) ∧
      (q.indication = 0 ∧ q.reprintTag = 0 ∨ q.indication = 1)
    (¬fits → Leads (.planAdd .jp q.bytes) s (s.AnsweredOnly .jp 0x04 [] [])) ∧
    (fits → (∃ x ∈ s.plans k, x.tag = q.tag) →
      Leads (.planAdd .jp q.bytes) s (s.AnsweredOnly .jp 0x0B [] [])) ∧
    (fits → (∀ x ∈ s.plans k, x.tag ≠ q.tag) → s.freePlans = 0 →
      Leads (.planAdd .jp q.bytes) s (s.AnsweredOnly .jp 0x09 [] [])) ∧
    (fits → (∀ x ∈ s.plans k, x.tag ≠ q.tag) → 0 < s.freePlans →
      Leads (.planAdd .jp q.bytes) s fun t => s.Performed .jp 0x40 q.bytes [] [.pls] t ∧
        t.pls = { s.pls with queues := s.pls.queues.set k (s.plans k ++ [{
          tag := q.tag, length := q.length, marks := q.marks,
          actions := q.actions.map fun a => (a.1, if a.2 = 0 then .cut else .perf),
          reprintOf := if q.indication = 1 then some q.reprintTag else none }]) } ∧
        t.usedPlans = s.usedPlans + 1)

/-- R23: PLAN WITHDRAW removes the plan with that tag from that lane's queue; where there is none, a resident
panel with that tag in that lane is refused IN MAP, and otherwise the tag is refused UNKNOWN TAG. -/
def Obligations.PlanWithdrawRemovesThePlan : Prop :=
  ∀ (b : Byte) (tag : Half) (s : State), s.receiving .jp = true →
    (3 < b.toNat → Leads (.planWithdraw .jp ([b] ++ bigEndian 2 tag.toNat)) s
      (s.AnsweredOnly .jp 0x04 [] [])) ∧
    ∀ k : Lane, b.toNat = laneNumber k →
      (∀ (pre post : List Plan) (x : Plan), s.plans k = pre ++ x :: post → x.tag = tag →
        (∀ y ∈ pre, y.tag ≠ tag) →
        Leads (.planWithdraw .jp ([b] ++ bigEndian 2 tag.toNat)) s fun t =>
          s.Performed .jp 0x41 ([b] ++ bigEndian 2 tag.toNat) [] [.pls] t ∧
          t.pls = { s.pls with queues := s.pls.queues.set k (pre ++ post) } ∧
          t.usedPlans + 1 = s.usedPlans) ∧
      ((∀ y ∈ s.plans k, y.tag ≠ tag) →
        ((∃ q ∈ s.residentsOf k, q.tag = tag) →
          Leads (.planWithdraw .jp ([b] ++ bigEndian 2 tag.toNat)) s (s.AnsweredOnly .jp 0x0F [] [])) ∧
        ((∀ q ∈ s.residentsOf k, q.tag ≠ tag) →
          Leads (.planWithdraw .jp ([b] ++ bigEndian 2 tag.toNat)) s (s.AnsweredOnly .jp 0x10 [] [])))

/-- R25 to R29, Table 2-3: a print notice in bad form is refused BAD ARGUMENT; then the first check that fails
decides: line state, KNIFE WORN, POOL FULL, FUTURE POSITION, UNPLANNED with its record, OVERLAP. -/
def Obligations.PrintNoticeIsChecked : Prop :=
  ∀ (b c : Byte) (tag : Half) (w : Word) (s : State), s.receiving .pp = true →
    let body := [b] ++ bigEndian 2 tag.toNat ++ bigEndian 4 w.toNat ++ [c]
    (3 < b.toNat ∨ (∃ k, b.toNat = laneNumber k ∧ s.params.isPresent k = false) ∨ 1 < c.toNat →
      Leads (.printNotice .pp body) s (s.AnsweredOnly .pp 0x04 [] [])) ∧
    ∀ k : Lane, b.toNat = laneNumber k → s.params.isPresent k = true → c.toNat ≤ 1 →
      (s.lnc.line ≠ .ready → s.lnc.line ≠ .run → Leads (.printNotice .pp body) s
        (s.AnsweredOnly .pp 0x06 (namedState 1 s.lnc.line.code) [])) ∧
      (s.lnc.line = .ready ∨ s.lnc.line = .run →
        ((s.knife k).preFail = true →
          Leads (.printNotice .pp body) s (s.AnsweredOnly .pp 0x0E [] [])) ∧
        ((s.knife k).preFail = false → s.freePanels = 0 →
          Leads (.printNotice .pp body) s (s.AnsweredOnly .pp 0x08 [] [])) ∧
        ((s.knife k).preFail = false → 0 < s.freePanels → 0 < w.diff s.mot.p →
          Leads (.printNotice .pp body) s (s.AnsweredOnly .pp 0x0D [] [])) ∧
        ((s.knife k).preFail = false → 0 < s.freePanels → w.diff s.mot.p ≤ 0 →
          (∀ x ∈ s.plans k, x.tag ≠ tag) → Leads (.printNotice .pp body) s fun t =>
            s.AnsweredOnly .pp 0x0A [] [.queue] t ∧
            t.cnd.queue = placeAll [newRecord (.planNotice .unplannedPrint) (some k) none
              (some s.mot.l) (some tag.toNat)] s.cnd.queue) ∧
        ((s.knife k).preFail = false → 0 < s.freePanels → w.diff s.mot.p ≤ 0 →
          (∃ x ∈ s.plans k, x.tag = tag) →
          (∃ q ∈ s.residentsOf k, w.diff (q.wLead.plus q.length) < 0 ∧
            ∀ x ∈ s.residentsOf k, x ≠ q → 0 < q.wLead.diff x.wLead) →
          Leads (.printNotice .pp body) s (s.AnsweredOnly .pp 0x0C [] [])))

/-- R30 to R35: an accepted notice takes the matched plan and those ahead of it from the queue, with a PLAN
SKIPPED record for each of these, the first without ANCILLARY; its panel takes a serial that no resident panel
holds; an IDLE lane enters ACQUIRE on the loop reference, with the nominal scale, miss count 0 and a fresh copy of G1;
the pool reason follows the free count (R16). A panel whose predicted lead lies ahead of the high-water enters LOOP at
the end of its lane sequence. Any other enters WEB at once (R34, R43), and its lane is scanned (R94): it is in WEB, or
DONE where every action of it has missed and its tail event is reached; PLAN SKIPPED records come before those of the
scan. Where every PENDING action of the lane lies ahead of the high-water by its fire position on the lane's
reference, in TRACK and COAST by more than the arming horizon, the scan does nothing, and the panel stands in WEB at
the end of the sequence with nothing else changed but marks and the expected mark. These follow R68 and R69 in every
case: the first PENDING mark on the web whose window expiry lies ahead is expected, those before it pass unobserved. -/
def Obligations.PrintNoticeAdmitsAPanel : Prop :=
  ∀ (b c : Byte) (w : Word) (k : Lane) (pre post : List Plan) (x : Plan) (s : State),
    s.receiving .pp = true → b.toNat = laneNumber k → s.params.isPresent k = true → c.toNat ≤ 1 →
    (s.lnc.line = .ready ∨ s.lnc.line = .run) → (s.knife k).preFail = false →
    0 < s.freePanels → s.SerialsUnique → w.diff s.mot.p ≤ 0 →
    s.plans k = pre ++ x :: post → (∀ y ∈ pre, y.tag ≠ x.tag) →
    (∀ q ∈ s.residentsOf k, 0 ≤ w.diff (q.wLead.plus q.length)) →
    let body := [b] ++ bigEndian 2 x.tag.toNat ++ bigEndian 4 w.toNat ++ [c]
    let idle := (s.lane k).state = .idle
    let wref := if idle then s.mot.p.shift (-(s.lpm.lp : Int)) else (s.lane k).wref
    let lref := if idle then s.mot.l else (s.lane k).lref
    let scale := if idle then s.params.value .nominalScale else (s.lane k).scale
    let started : LaneRec := if idle then
        { s.lane k with
          state := .acquire, wref := wref, lref := lref, scale := scale, missCount := 0, g1 := s.params.g1 }
      else s.lane k
    let skipped (serial : Half) : List Record := pre.mapIdx fun i y =>
      { newRecord (.planNotice .planSkipped) (some k) (some (serial, x.tag)) none
          (some y.tag.toNat) with ancillary := decide (0 < i) }
    let lead := predict wref lref scale w
    let panel (serial : Half) : Panel :=
      { serial := serial, tag := x.tag, lane := k, wLead := w, length := x.length,
        quality := if c.toNat = 0 then .good else .spoiled, reprintOf := x.reprintOf,
        state := .loop, voidCause := none, marks := x.marks.map fun o => ⟨o, .pending⟩,
        actions := x.actions.map fun a => ⟨a.1, a.2, .pending⟩, disposition := none,
        leadReading := lead,
        tailEvent := (predict wref lref scale (w.plus x.length)).plus
          (s.params.value (.knifeDistance k)) }
    Leads (.printNotice .pp body) s fun t =>
      s.Answered .pp 0x00 [] t ∧ s.Joined .pp 0x10 body t ∧
      (∃ serial : Half, (∀ q ∈ s.residents, q.serial ≠ serial) ∧
        ((∀ q ∈ s.residents, q.serial ≠ s.pls.serial + 1) → serial = s.pls.serial + 1) ∧
        t.pls = { queues := s.pls.queues.set k post, serial := serial } ∧
        t.freePanels = s.freePanels - 1 ∧
        t.lpm = { s.lpm with
          poolReason := decide (s.freePanels - 1 < s.params.value .poolReserve) } ∧
        (0 < lead.diff s.mot.highWater →
          s.SameBut [.framers, .present, .history, .pls, .map, .lpm, .reg, .queue] t ∧
          t.map = { s.map with seqs := s.map.seqs.set k (s.seq k ++ [panel serial]) } ∧
          t.reg = { lanes := s.reg.lanes.set k started } ∧
          t.cnd.queue = placeAll (skipped serial) s.cnd.queue) ∧
        (lead.diff s.mot.highWater ≤ 0 →
          s.SameBut [.framers, .present, .history, .pls, .map, .lpm, .reg, .csc, .queue] t ∧
          (∀ j, j ≠ k → t.lane j = s.lane j ∧ t.seq j = s.seq j) ∧
          (t.lane k = { started with expected := (t.lane k).expected } ∨
            t.seq k = [] ∧
              t.lane k = { started with state := .idle, missCount := 0, expected := none }) ∧
          (s.OutfeedFlagFollows →
            ∃ more, t.cnd.queue = placeAll (skipped serial ++ more) s.cnd.queue) ∧
          (s.ExpectedFollows → s.ExpiryAhead k → s.Observes k (s.seq k ++ [panel serial]) t) ∧
          (∃ q ∈ t.residents, q.serial = serial) ∧
          (∀ q ∈ t.residents, q.serial = serial → (q.state = .web ∨ q.state = .done) ∧
            q = { panel serial with
              state := q.state, voidCause := q.voidCause, disposition := q.disposition,
              marks := q.marks, actions := q.actions } ∧
            q.marks.map (·.offset) = x.marks ∧
            q.actions.map (fun a => (a.offset, a.kind)) = x.actions) ∧
          (let web := (panel serial).inState .web
           let reach : Int := if started.state = .track ∨ started.state = .coast then 4000 else 0
           (∀ y ∈ s.seq k ++ [web], y.onWeb = true → ∀ a ∈ y.actions, a.status = .pending →
              reach < (s.fireOn k started y a).diff s.mot.highWater) →
            s.SameBut [.framers, .present, .history, .pls, .map, .lpm, .reg, .queue] t ∧
            t.map = { s.map with seqs := s.map.seqs.set k (t.seq k) } ∧
            SameButMarks (s.seq k ++ [web]) (t.seq k) ∧
            t.reg = { lanes := s.reg.lanes.set k { started with expected := (t.lane k).expected } } ∧
            t.cnd.queue = placeAll (skipped serial) s.cnd.queue)))

/-! ### Splices and the brake -/

/-- R137 to R140, R142 to R144: FILM SPLICE enters a record at L_now, already passed, that retires within the
entry where its retire reading is already reached; every lane's settle restarts at the settle distance of its copy
of G1, which widens its window (R83, R84; the flag settling is assumption 7), and entered into an empty list it
restarts with every signal of the event (R138), whether a lane's copy is G1 as it stands or an older one (R63); the
revolution measurement restarts and the film indications clear; the
panels that overlap the region carry a void cause, and those that take SPLICE keep no uncommitted PERF action.
Where settle brings no window expiry to the high-water and every lane is quiet, the voids are those of R142,
record by record, and nothing else changes. R139: a fifth record is refused LIST FULL. A FILM BREAK still due is
taken first (R146, assumption 34). -/
def Obligations.FilmSpliceEntersARecord : Prop :=
  ∀ s : State, s.receiving .fp = true →
    (4 ≤ s.ten.splices.length → Leads (.filmSplice .fp []) s (s.AnsweredOnly .fp 0x09 [] [])) ∧
    (∀ u, s.ten.splices.length < 4 → s.ten.breakWatch = .due → exec .filmBreak s = .next u →
      exec (.filmSplice .fp []) s = exec (.filmSplice .fp []) u) ∧
    (s.ten.splices.length < 4 → s.ten.breakWatch ≠ .due → s.SerialsUnique →
      ∀ largest : Nat, s.LargestKnife largest →
      let half := s.params.value .spliceHalfLength
      let lower := s.mot.l.shift (-(half : Int))
      let upper := s.mot.l.plus half
      let retire := s.mot.l.plus (half + largest)
      let retires := decide (retire.diff s.mot.highWater ≤ 0)
      Leads (.filmSplice .fp []) s fun t =>
        s.Performed .fp 0x25 [] (fieldBytes [(4, s.mot.l.toNat), (4, retire.toNat)])
          [.map, .reg, .csc, .ten, .lnc, .queue, .log] t ∧
        t.ten = { s.ten with
          splices := if retires = true then s.ten.splices else s.ten.splices ++ [{
            kind := .film, nip := s.mot.l, lower := lower, upper := upper, retire := retire,
            passed := true, passage := .entry }]
          profile := if s.ten.splices ≠ [] then s.ten.profile
            else if retires = true then .normal else .splice
          measured := false, c := none, indexDistance := 0, breakWatch := .clear, filmEnd := false,
          filmLow := false, duty := t.wantedDuty } ∧
        (s.ten.splices ≠ [] → s.Settled t) ∧ (s.ten.splices = [] → s.Resettled t) ∧
        (∀ k, ∀ q ∈ t.seq k, q.leadReading.diff upper ≤ 0 →
          0 ≤ (q.tailEvent.shift (-(s.params.value (.knifeDistance k) : Int))).diff lower →
          q.voidCause ≠ none) ∧
        s.SplicedHaveNoPerfs t ∧
        (s.ten.filmLow = true → ∀ r ∈ t.cnd.queue, ¬(r.cause = .warning .filmLow ∧ r.lane = none)) ∧
        (s.SettleHolds → (∀ k, s.QuietLane k) →
          s.SameBut [.framers, .present, .history, .map, .reg, .csc, .ten, .queue] t ∧
          (∀ k, t.lane k = s.settledLane k) ∧
          ∃ q, s.SpliceVoids s.mot.l lower upper s.cnd.queue (t.setQueue q) ∧
            t.cnd.queue = s.warned .filmLow 0 s.ten.filmLow false q))

/-- R141 to R144: WEB SPLICE enters a record at the prediction of its web coordinate, from lane 0, else from the
lowest present lane that is not IDLE, else from the loop reference; the record is passed, with the signal of
R138, when its nip reading is already reached, and retires within the entry when its retire reading is; the
signals start settle, each at the settle distance of the lane's copy of G1, which widens the windows (R63, R83, R84,
R138; assumption 7). The panels that overlap the region carry a void cause, and those that take SPLICE keep no
uncommitted PERF action. Where settle brings no window expiry to the high-water and every lane is quiet, the voids
are those of R142, record by record, and nothing else changes. -/
def Obligations.WebSpliceEntersARecord : Prop :=
  ∀ (w : Word) (s : State), s.receiving .pp = true →
    let body := bigEndian 4 w.toNat
    (0 < w.diff s.mot.p → Leads (.webSplice .pp body) s (s.AnsweredOnly .pp 0x0D [] [])) ∧
    (w.diff s.mot.p ≤ 0 → 4 ≤ s.ten.splices.length →
      Leads (.webSplice .pp body) s (s.AnsweredOnly .pp 0x09 [] [])) ∧
    (w.diff s.mot.p ≤ 0 → s.ten.splices.length < 4 → s.SerialsUnique →
      ∀ (largest : Nat) (nip : Word), s.LargestKnife largest → s.WebNip w nip →
      let half := s.params.value .spliceHalfLength
      let lower := nip.shift (-(half : Int))
      let upper := nip.plus half
      let retire := nip.plus (half + largest)
      let passed := decide (nip.diff s.mot.highWater ≤ 0)
      let retires := decide (retire.diff s.mot.highWater ≤ 0)
      let signals := s.ten.splices.isEmpty || passed
      let again := s.ten.splices.isEmpty && (passed || retires)
      Leads (.webSplice .pp body) s fun t =>
        s.Performed .pp 0x11 body (fieldBytes [(4, nip.toNat), (4, retire.toNat)])
          [.map, .reg, .csc, .ten, .lnc, .queue, .log] t ∧
        t.ten = { s.ten with
          splices := if retires = true then s.ten.splices else s.ten.splices ++ [{
            kind := .web, nip := nip, lower := lower, upper := upper, retire := retire,
            passed := passed, passage := if passed = true then .entry else .ahead }]
          profile := if s.ten.splices ≠ [] then s.ten.profile
            else if retires = true then .normal else .splice
          duty := t.ten.duty } ∧
        (s.ten.splices = [] ∨ s.DutyFollows → t.ten.duty = t.wantedDuty) ∧
        (signals = true → again = false → s.Settled t) ∧ (again = true → s.Resettled t) ∧
        (signals = false → ∀ k, (t.lane k).settleRemaining = (s.lane k).settleRemaining ∧
          (t.lane k).settling = (s.lane k).settling) ∧
        (∀ k, ∀ q ∈ t.seq k, q.leadReading.diff upper ≤ 0 →
          0 ≤ (q.tailEvent.shift (-(s.params.value (.knifeDistance k) : Int))).diff lower →
          q.voidCause ≠ none) ∧
        s.SplicedHaveNoPerfs t ∧
        (s.SettleHolds ∨ signals = false → (∀ k, s.QuietLane k) →
          s.SameBut [.framers, .present, .history, .map, .reg, .csc, .ten, .queue] t ∧
          (∀ k, t.lane k = if signals = true then s.settledLane k else s.lane k) ∧
          s.SpliceVoids nip lower upper s.cnd.queue t))

/-- R143, R144: at its nip reading the first splice whose passage event is still to come becomes passed, with the
tension-change signal; at its retire reading a splice leaves the list, and an emptied list switches the profile to
NORMAL with the signal. The signal starts settle, which widens the windows (R83, R84; assumption 7), and where that
brings no window expiry to the high-water nothing else changes. A command that finds none due changes nothing
(assumption 3; that a lowered high-water makes a passage event come again is R6 and assumption 35). -/
def Obligations.SplicesPassAndRetire : Prop :=
  ∀ s : State,
    (∀ (pre post : List Splice) (x : Splice), s.ten.splices = pre ++ x :: post → x.passage = .ahead →
      x.nip.diff s.mot.highWater ≤ 0 →
      (∀ y ∈ pre, y.passage = .ahead → 0 < y.nip.diff s.mot.highWater) →
      let list := pre ++ { x with passed := true, passage := .delivered } :: post
      Leads .splicePassage s fun t =>
        s.SameBut [.map, .reg, .csc, .ten, .lnc, .queue, .log] t ∧
        t.ten = { s.ten with splices := list, duty := t.ten.duty } ∧ s.Settled t ∧
        (s.SettleHolds → s.SameBut [.ten, .reg] t ∧ t.ten = { s.ten with splices := list } ∧
          ∀ k, t.lane k = s.settledLane k)) ∧
    ((∀ y ∈ s.ten.splices, y.passage = .ahead → 0 < y.nip.diff s.mot.highWater) →
      exec .splicePassage s = .next s) ∧
    (∀ (pre post : List Splice) (x : Splice), s.ten.splices = pre ++ x :: post →
      x.retire.diff s.mot.highWater ≤ 0 → (∀ y ∈ pre, 0 < y.retire.diff s.mot.highWater) →
      Leads .retirement s fun t =>
        (pre ++ post ≠ [] → s.SameBut [.ten] t ∧ t.ten = { s.ten with splices := pre ++ post }) ∧
        (pre ++ post = [] → s.SameBut [.map, .reg, .csc, .ten, .lnc, .queue, .log] t ∧
          t.ten = { s.ten with splices := [], profile := .normal, duty := t.wantedDuty } ∧
          s.Settled t ∧
          (s.SettleHolds → s.SameBut [.ten, .reg] t ∧ ∀ k, t.lane k = s.settledLane k))) ∧
    ((∀ y ∈ s.ten.splices, 0 < y.retire.diff s.mot.highWater) → exec .retirement s = .next s)

/-- R130 to R136: an index pulse is taken at high-water and FORWARD. Unmeasured it synchronises; measured it takes
C, sets the film indications by it with their warning, its withdrawal or their cause, and recomputes D. FILM END
that comes to be set halts a line in RUN or DRAIN (R155, R156), and is a further cause in HALTED (R157). At the
line advance at which the index distance came to exceed the timeout, FILM BREAK halts a line in RUN or DRAIN, and
is a further cause in HALTED (R134; the event stands on its own by assumptions 3 and 8). A pulse takes a FILM BREAK
that is still due first (R146, assumption 34); film end is tested before film low (assumption 9). The details of the
records are those of Table 8-3, as LinesAndStandingConditionsFollowTheState states them. -/
def Obligations.IndexPulsesMeasureTheRoll : Prop :=
  ∀ s : State,
    (s.mot.l ≠ s.mot.highWater ∨ s.mot.direction = .reverse → exec .indexPulse s = .next s) ∧
    (s.mot.l = s.mot.highWater → s.mot.direction = .forward →
      (∀ u, s.ten.breakWatch = .due → exec .filmBreak s = .next u →
        exec .indexPulse s = exec .indexPulse u) ∧
      (s.ten.breakWatch ≠ .due → s.ten.measured = false → Leads .indexPulse s fun t =>
        s.SameBut [.ten] t ∧
        t.ten = { s.ten with measured := true, indexDistance := 0, breakWatch := .clear }) ∧
      (s.ten.breakWatch ≠ .due → s.ten.measured = true →
        let c := s.ten.indexDistance
        let ends := decide (c < s.params.value .cCore)
        let low := decide (c < s.params.value .filmLowC)
        let v : State := { s with ten := { s.ten with
          c := some c, indexDistance := 0, breakWatch := .clear, filmEnd := ends, filmLow := low } }
        let isNew := ends && !s.ten.filmEnd
        Leads .indexPulse s fun t =>
          t.ten = { v.ten with duty := t.wantedDuty } ∧
          ∃ q, t.cnd.queue = s.warned .filmLow c s.ten.filmLow low q ∧
            (isNew = true → s.lnc.line.running = true → v.Halts .filmEnd (t.setQueue q)) ∧
            (isNew = true → s.lnc.line = .halted → s.SameBut [.ten, .queue, .log] t ∧
              (v.setTen t.ten).TakesFurther .filmEnd (t.setQueue q)) ∧
            (isNew = false ∨ s.lnc.line = .ready ∨ s.lnc.line = .offline →
              s.SameBut [.ten, .queue] t ∧ q = s.cnd.queue))) ∧
    (s.ten.breakWatch = .due →
      let v : State := { s with ten := { s.ten with breakWatch := .held } }
      (s.lnc.line.running = true → Leads .filmBreak s (v.Halts .filmBreak)) ∧
      (s.lnc.line = .halted → Leads .filmBreak s (v.TakesFurther .filmBreak)) ∧
      (s.lnc.line = .ready ∨ s.lnc.line = .offline → exec .filmBreak s = .next v)) ∧
    (s.ten.breakWatch ≠ .due → exec .filmBreak s = .next s)

/-- R132, R133: the computed duty from the base of the active profile, C or C_full, rounded half up and clamped
first to max duty, then to min duty; it is called for in READY, RUN and DRAIN, min duty in OFFLINE and HALTED;
and the level is D, or 4,095 − D where the format is INVERTED. -/
def Obligations.DutyIsComputedFromTheRoll : Prop :=
  ∀ (s : State) (base c x : Nat),
    base = (if s.ten.profile = .splice then s.params.value .spliceBase
      else s.params.value .normalBase) →
    (s.ten.c = some c ∨ s.ten.c = none ∧ c = s.params.value .cFull) →
    0 < s.params.value .cFull →
    s.params.value .cFull * x ≤ base * c + s.params.value .cFull / 2 →
    base * c + s.params.value .cFull / 2 < s.params.value .cFull * (x + 1) →
    s.wantedDuty = (if s.lnc.line = .offline ∨ s.lnc.line = .halted then s.params.value .minDuty
      else if min x (s.params.value .maxDuty) < s.params.value .minDuty then s.params.value .minDuty
      else min x (s.params.value .maxDuty)) ∧
    s.brakeLevel = (if s.params.value .outputFormat = 1 then 4095 - s.ten.duty else s.ten.duty)

/-! ### Line requests -/

/-- R148, Table 8-1, R150 to R153, R155, R156, R158: the line requests by line state, what each makes of line
state, halt cause and brake duty, and the refusals: WRONG STATE names the state found, and for LINE RESUME the
standing conditions, in every state (assumption 13). A start or a drain that finds standing conditions halts with
the first of them in the order of Table 8-3, the next three secondary, and a fifth on a record of its own (R156),
each with an error log entry. At an entry to RUN or DRAIN the index distance is compared with the timeout
(assumption 8). When each condition stands, and its detail, is stated by LinesAndStandingConditionsFollowTheState;
that FILM BREAK stands by the timeout that the store holds, at once after a write to it, is assumption 37. -/
def Obligations.LineRequestsMoveTheState : Prop :=
  ∀ (s : State) (p : Port), s.receiving p = true →
    let bits := bit (s.standing .reverseLimit) + 2 * bit (s.standing .loopSensor) +
      4 * bit (s.standing .loopLow) + 8 * bit (s.standing .filmBreak) + 16 * bit (s.standing .filmEnd)
    let causes := [LineCause.reverseLimit, .loopSensor, .loopLow, .filmBreak, .filmEnd].filter s.standing
    let wrong := namedState 1 s.lnc.line.code
    let moved (kind : Byte) (l : LineState) (t : State) : Prop :=
      s.Performed p kind [] (fieldBytes [(1, l.code)]) [.lnc, .ten] t ∧
        t.lnc = { s.lnc with line := l } ∧ t.ten = { s.ten with
          duty := s.computedDuty
          breakWatch := if l = .ready then s.ten.breakWatch else .clear }
    let halted (kind : Byte) (l : LineState) (c : LineCause) (more : List LineCause) (t : State) : Prop :=
      s.Performed p kind [] (fieldBytes [(1, 4)]) [.lnc, .ten, .queue, .log] t ∧
        t.lnc = { s.lnc with line := .halted, haltCause := some c } ∧
        t.ten = { s.ten with
          duty := s.params.value .minDuty
          breakWatch := if s.standing .filmBreak = true then .held else .clear } ∧
        ∃ u : State, u.SameBut [.queue, .log] t ∧ s.MakesDamage c (more.take 3) l u ∧
          (more.length ≤ 3 → u = t) ∧ ∀ d, more[3]? = some d → u.MakesDamage d [] l t
    (p = .fp →
      (s.lnc.line = .offline → s.lnc.configValid = true →
        Leads (.lineArm p []) s (moved 0x20 .ready)) ∧
      (s.lnc.line ≠ .offline → Leads (.lineArm p []) s (s.AnsweredOnly p 0x06 wrong [])) ∧
      (s.lnc.line = .ready → causes = [] → Leads (.lineStart p []) s (moved 0x21 .run)) ∧
      (∀ c cs, s.lnc.line = .ready → causes = c :: cs →
        Leads (.lineStart p []) s (halted 0x21 .run c cs)) ∧
      (s.lnc.line ≠ .ready → Leads (.lineStart p []) s (s.AnsweredOnly p 0x06 wrong [])) ∧
      (s.lnc.line = .run ∨ s.lnc.line = .drain → Leads (.lineStop p []) s (moved 0x22 .ready)) ∧
      (s.lnc.line ≠ .run → s.lnc.line ≠ .drain →
        Leads (.lineStop p []) s (s.AnsweredOnly p 0x06 wrong [])) ∧
      (s.lnc.line = .halted → causes = [] → Leads (.lineResume p []) s fun t =>
        s.Performed p 0x23 [] (fieldBytes [(1, 2)]) [.lnc, .ten] t ∧
        t.lnc = { s.lnc with line := .run, haltCause := none } ∧
        t.ten = { s.ten with duty := s.computedDuty, breakWatch := .clear }) ∧
      (s.lnc.line ≠ .halted ∨ causes ≠ [] →
        Leads (.lineResume p []) s (s.AnsweredOnly p 0x06 (wrong ++ fieldBytes [(1, bits)]) [])) ∧
      (s.lnc.line = .run ∨ s.lnc.line = .drain →
        Leads (.lineClear p []) s (s.AnsweredOnly p 0x06 wrong []))) ∧
    (p = .fp ∨ p = .jp →
      (s.lnc.line = .run → s.inLine = [] → Leads (.lineDrain p []) s (moved 0x30 .ready)) ∧
      (s.lnc.line = .run → s.inLine ≠ [] → causes = [] →
        Leads (.lineDrain p []) s (moved 0x30 .drain)) ∧
      (∀ c cs, s.lnc.line = .run → s.inLine ≠ [] → causes = c :: cs →
        Leads (.lineDrain p []) s (halted 0x30 .drain c cs)) ∧
      (s.lnc.line ≠ .run → Leads (.lineDrain p []) s (s.AnsweredOnly p 0x06 wrong [])))

/-- R149, R150, Table 8-2: LINE ARM in OFFLINE with the flag clear is refused CONFIG INVALID, naming the line
state and the first failing check: check 1 with the lowest present lane whose knife stands less than 1,000
counts behind its sensor, else check 2 with the first value out of its range, by group, item and index. The
order among lanes, and that among values, is the model's choice of assumption 38. -/
def Obligations.ArmNamesTheFailingCheck : Prop :=
  ∀ s : State, s.receiving .fp = true → s.lnc.line = .offline → s.lnc.configValid = false →
    let near (k : Lane) : Prop := s.params.isPresent k = true ∧
      s.params.value (.knifeDistance k) < s.params.value (.sensorDistance k) + 1000
    let bad (g i n : Nat) : Prop :=
      ∃ q, paramOf g i n = some q ∧ s.params.inRange q (s.params.value q) = false
    (∀ k, near k → (∀ j, laneNumber j < laneNumber k → ¬near j) →
      Leads (.lineArm .fp []) s
        (s.AnsweredOnly .fp 0x07 (fieldBytes [(1, 0), (1, 1), (1, laneNumber k)]) [])) ∧
    (∀ g i n, (∀ k, ¬near k) → bad g i n →
      (∀ g' i' n', g' < g ∨ g' = g ∧ (i' < i ∨ i' = i ∧ n' < n) → ¬bad g' i' n') →
      Leads (.lineArm .fp []) s
        (s.AnsweredOnly .fp 0x07 (fieldBytes [(1, 0), (1, 2), (1, g), (1, i), (1, n)]) []))

/-- R160, Table 8-5, R61, R108, R145: LINE CLEAR in OFFLINE, READY or HALTED takes the line to OFFLINE and clears
what the table names, with one MAP CLEARED record; the rest is kept. Two clauses are about the model's own
fields: `settling` (assumption 7) follows the settle that R145 begins, and the number of armings, in the part of
CSC that stays, is kept (assumption 36). -/
def Obligations.LineClearEndsTheRun : Prop :=
  ∀ s : State, s.receiving .fp = true →
    (s.lnc.line = .offline ∨ s.lnc.line = .ready ∨ s.lnc.line = .halted) →
    Leads (.lineClear .fp []) s fun t =>
      s.Performed .fp 0x24 [] (fieldBytes [(1, 0)]) [.map, .lpm, .reg, .csc, .ten, .lnc, .queue] t ∧
      t.lnc = { s.lnc with line := .offline, haltCause := none } ∧
      (∀ k, t.seq k = []) ∧ t.map.waiting = [] ∧ t.map.outfeed = [] ∧ t.map.outfeedFull = false ∧
      (∀ p, t.map.cursors.get p = .start .l0) ∧ t.csc = { s.csc with fireList := [] } ∧
      t.lpm = { s.lpm with poolReason := decide (96 < s.params.value .poolReserve) } ∧
      (∀ k, t.lane k = { s.lane k with
        state := .idle, missCount := 0, strayCount := 0, recovery := 0, expected := none,
        settleRemaining :=
          if s.ten.splices = [] then (s.lane k).settleRemaining else (s.lane k).g1.settleDistance,
        settling :=
          if s.ten.splices = [] then (s.lane k).settling
          else decide (0 < (s.lane k).g1.settleDistance) }) ∧
      t.ten = { s.ten with
        splices := [], profile := if s.ten.splices = [] then s.ten.profile else .normal,
        duty := s.params.value .minDuty } ∧
      t.cnd.queue = placeAll
        [newRecord (.planNotice .mapCleared) none none (some s.mot.l) (some s.residents.length)]
        (if s.map.outfeedFull = true then
          s.cnd.queue.filter fun r => !(r.cause == .warning .outfeedFull && r.lane == none)
         else s.cnd.queue)

/-! ### Knives, outfeed, voids and lanes by request -/

/-- R116 to R119, Table 6-1: the knife requests by knife state, in every line state and for a knife whose lane is
not present too; a refusal WRONG STATE names the knife state. A body that names no knife is refused. -/
def Obligations.KnifeRequestsFollowTheTable : Prop :=
  (∀ (body : List Byte) (s : State), s.receiving .fp = true →
    body.length ≠ 1 ∨ 3 < (body.headD 0).toNat →
    Leads (.knifeDisable .fp body) s (s.AnsweredOnly .fp 0x04 [] []) ∧
    Leads (.knifeEnable .fp body) s (s.AnsweredOnly .fp 0x04 [] []) ∧
    Leads (.knifeReset .fp body) s (s.AnsweredOnly .fp 0x04 [] [])) ∧
  ∀ (b : Byte) (k : Lane) (s : State), s.receiving .fp = true → b.toNat = laneNumber k →
    let becomes (kind : Byte) (n : Knife) (t : State) : Prop :=
      s.Performed .fp kind [b] [] [.knc] t ∧ t.knc = { knives := s.knc.knives.set k n }
    let n := s.knife k
    let wrong := s.AnsweredOnly .fp 0x06 (namedState 3 n.state.code) []
    let away := s.AnsweredOnly .fp 0x13 [] []
    (n.state = .ready ∨ n.state = .fault →
      Leads (.knifeDisable .fp [b]) s (becomes 0x27 { n with state := .disabled })) ∧
    (∀ r, n.state = .stroke r →
      Leads (.knifeDisable .fp [b]) s (becomes 0x27 { n with disablePending := true })) ∧
    (n.state = .disabled → Leads (.knifeDisable .fp [b]) s wrong) ∧
    (n.state = .disabled → n.home = true →
      Leads (.knifeEnable .fp [b]) s (becomes 0x26 { n with state := .ready })) ∧
    (n.state = .disabled → n.home = false → Leads (.knifeEnable .fp [b]) s away) ∧
    (∀ r, n.state = .stroke r → n.disablePending = true →
      Leads (.knifeEnable .fp [b]) s (becomes 0x26 { n with disablePending := false })) ∧
    (∀ r, n.state = .stroke r → n.disablePending = false → Leads (.knifeEnable .fp [b]) s wrong) ∧
    (n.state = .ready ∨ n.state = .fault → Leads (.knifeEnable .fp [b]) s wrong) ∧
    (n.state = .fault → n.home = true →
      Leads (.knifeReset .fp [b]) s (becomes 0x28 { n with state := .ready })) ∧
    (n.state = .fault → n.home = false → Leads (.knifeReset .fp [b]) s away) ∧
    (n.state ≠ .fault → Leads (.knifeReset .fp [b]) s wrong)

/-- R126: ATTRIBUTE READ returns both rows and changes nothing. R127: ATTRIBUTE RESET gives them their reset
values, the mean the nominal stroke time. R128, R121 to R123: ATTRIBUTE LOAD is refused for a value out of
range, then outside OFFLINE, then in STROKE; otherwise it writes the raw values, computes N and tests both
rows, STROKE LIFE first. -/
def Obligations.AttributesAreReadResetAndLoaded : Prop :=
  ∀ (b : Byte) (k : Lane) (s : State), s.receiving .jp = true → b.toNat = laneNumber k →
    Leads (.attributeRead .jp [b]) s (s.AnsweredOnly .jp 0x00 (s.attributeReply k) []) ∧
    (Leads (.attributeReset .jp [b]) s fun t => s.Performed .jp 0x46 [b] [] [.knc] t ∧
      t.knc = { knives := s.knc.knives.set k { s.knife k with
        strokes := 0, lifeN := 253, lifeWorst := 253, lifeLatch := false, lastDuration := none,
        mean := s.params.value .nominalStrokeTime, timeN := 253, timeWorst := 253,
        timeLatch := false, preFail := false } }) ∧
    ∀ strokes mean last : Nat, strokes < 16777216 → mean < 16777216 → last < 16777216 →
      let body := [b] ++ bigEndian 3 strokes ++ bigEndian 3 mean ++ bigEndian 3 last
      (100000 < mean ∨ 100000 < last →
        Leads (.attributeLoad .jp body) s (s.AnsweredOnly .jp 0x04 [] [])) ∧
      (mean ≤ 100000 → last ≤ 100000 →
        (s.lnc.line ≠ .offline → Leads (.attributeLoad .jp body) s
          (s.AnsweredOnly .jp 0x06 (namedState 1 s.lnc.line.code) [])) ∧
        (∀ r, s.lnc.line = .offline → (s.knife k).state = .stroke r →
          Leads (.attributeLoad .jp body) s (s.AnsweredOnly .jp 0x06 (namedState 3 1) [])) ∧
        (s.lnc.line = .offline → (∀ r, (s.knife k).state ≠ .stroke r) →
          let rated := s.params.value .ratedLife
          let nominal := s.params.value .nominalStrokeTime
          let life := 1 + 252 * (rated - strokes) / rated
          let time := max 1 (253 - ((mean - nominal) * 252 + nominal / 2) / nominal)
          let lifeFalls := decide (life ≤ s.params.value (.lifeThreshold k))
          let timeFalls := decide (time ≤ s.params.value (.timeThreshold k))
          let worn (detail : Nat) := newRecord (.degradation .knifeWear) (some k) none (some s.mot.l)
            (some detail)
          Leads (.attributeLoad .jp body) s fun t =>
            s.Performed .jp 0x47 body [] [.knc, .queue] t ∧
            t.knc = { knives := s.knc.knives.set k { s.knife k with
              strokes := strokes, lifeN := life, lifeWorst := life, lifeLatch := lifeFalls,
              lastDuration := if last = 0 then none else some last, mean := mean, timeN := time,
              timeWorst := time, timeLatch := timeFalls,
              preFail := lifeFalls && decide (s.params.value (.lifeFlag k) = 1) ||
                timeFalls && decide (s.params.value (.timeFlag k) = 1) } } ∧
            t.cnd.queue = placeAll
              ((if lifeFalls then [worn (1000 + life)] else []) ++
                if timeFalls then [worn (2000 + time)] else []) s.cnd.queue))

/-- R55, R54, R16: OUTFEED TAKE returns the oldest record of the lane on the outfeed list and frees it; the
oldest waiting record takes the room; the outfeed-full flag and the pool reason follow. With none of the lane
on the list it is refused EMPTY, and a body that names no lane BAD ARGUMENT. -/
def Obligations.OutfeedTakeFreesTheOldest : Prop :=
  (∀ (body : List Byte) (s : State), s.receiving .fp = true →
    body.length ≠ 1 ∨ 3 < (body.headD 0).toNat →
    Leads (.outfeedTake .fp body) s (s.AnsweredOnly .fp 0x04 [] [])) ∧
  ∀ (b : Byte) (k : Lane) (s : State), s.receiving .fp = true → b.toNat = laneNumber k →
    (∀ (pre post : List Panel) (q : Panel), s.map.outfeed = pre ++ q :: post → q.lane = k →
      (∀ x ∈ pre, x.lane ≠ k) → s.PoolsFit →
      Leads (.outfeedTake .fp [b]) s fun t =>
        s.Performed .fp 0x29 [b] (panelReply 2 q) [.map, .lpm, .queue] t ∧
        t.map = { s.map with
          outfeed := pre ++ post ++ s.map.waiting.take 1, waiting := s.map.waiting.drop 1,
          outfeedFull := decide (s.map.waiting ≠ [] ∧ s.map.outfeed.length = 24) } ∧
        t.freePanels = s.freePanels + 1 ∧
        t.lpm = { s.lpm with
          poolReason := decide (s.freePanels + 1 < s.params.value .poolReserve) } ∧
        (s.map.outfeedFull = true → s.map.waiting = [] → t.cnd.queue =
          s.cnd.queue.filter fun r => !(r.cause == .warning .outfeedFull && r.lane == none)) ∧
        (s.OutfeedFlagFollows → (s.map.outfeedFull = false ∨ s.map.waiting ≠ []) →
          t.cnd.queue = s.cnd.queue)) ∧
    ((∀ x ∈ s.map.outfeed, x.lane ≠ k) →
      Leads (.outfeedTake .fp [b]) s (s.AnsweredOnly .fp 0x12 [] []))

/-- R50, R46 to R48: PANEL VOID of a serial that no resident panel holds is refused UNKNOWN TAG, of a DONE panel
TOO LATE. Otherwise the panel carries REQUESTED, or the void cause it had, and none of its PERF actions is
PENDING or ARMED. Where the panel is not yet due to be DONE and none of its PERF actions is ARMED, nothing
else happens but the PANEL LOSS record of a first void. -/
def Obligations.PanelVoidMarksThePanel : Prop :=
  ∀ (n : Half) (s : State), s.receiving .jp = true →
    let body := bigEndian 2 n.toNat
    ((∀ q ∈ s.residents, q.serial ≠ n) →
      Leads (.panelVoid .jp body) s (s.AnsweredOnly .jp 0x10 [] [])) ∧
    ((∀ q ∈ s.inLine, q.serial ≠ n) → (∃ q ∈ s.map.waiting ++ s.map.outfeed, q.serial = n) →
      Leads (.panelVoid .jp body) s (s.AnsweredOnly .jp 0x11 [] [])) ∧
    ∀ (k : Lane) (q : Panel), s.SerialsUnique → q ∈ s.seq k → q.serial = n →
      Leads (.panelVoid .jp body) s fun t =>
        s.Performed .jp 0x42 body [] [.map, .csc, .reg, .lnc, .ten, .queue] t ∧
        (∃ x ∈ t.residents, x.serial = n) ∧
        (∀ x ∈ t.residents, x.serial = n → x.voidCause = some (q.voidCause.getD .requested) ∧
          ∀ a ∈ x.actions, a.kind = .perf → a.status ≠ .pending ∧ ∀ f, a.status ≠ .armed f) ∧
        (s.reached q.tailEvent = false →
          (∀ a ∈ q.actions, a.kind = .perf → ∀ f, a.status ≠ .armed f) →
          (∀ e ∈ s.csc.fireList, e.lane = k → e.serial = n → e.kind = .perf → e.committed = true) →
          s.SameBut [.framers, .present, .history, .map, .queue] t ∧
          t.map = { s.map with seqs := s.map.seqs.set k ((s.seq k).map (fun x => if x.serial = n then
            { x with
              voidCause := some (q.voidCause.getD .requested)
              actions := x.actions.map fun a =>
                if a.kind = .perf ∧ a.status = .pending then { a with status := .dropped } else a }
            else x)) } ∧
          t.cnd.queue = if q.voidCause = none then
              placeAll [{ newRecord (.panelLoss .requested) (some k) (some (n, q.tag))
                (some s.mot.l) none with backedUp := !q.anyStroked }] s.cnd.queue
            else s.cnd.queue)

/-- R87, R88, R63, R65, R107: LANE REACQUIRE of a lane in COAST or LOST gives it the loop reference, the nominal
scale and miss count 0 and takes it to ACQUIRE, and keeps its settle remaining and stray count; the recovery counter
changes only by the CUT DEVIATION reports of the assessments (R89, R100). The lane's ARMED entries leave the fire
list and its COMMITTED ones stay as they are, with their actions COMMITTED. An action so disarmed is PENDING again;
the scan of the hand-on (R94, R96) misses it, NOT REGISTERED, where its fire position on the new reference lies at
or behind the high-water, in web order. Every panel of the lane has the predictions of the loop reference (R42,
R43), and the expected mark is taken afresh, marks already behind the sensor passing unobserved (R68, R69). Where no
action of the lane is so behind and no panel becomes DONE, nothing else happens but the assessments of R100. The
account of the actions supposes that each entry stands on its action (StepKeepsEntriesAndExpectedMarks). In IDLE,
ACQUIRE and TRACK it is refused WRONG STATE, naming the lane state. -/
def Obligations.LaneReacquireStartsAfresh : Prop :=
  ∀ (p : Port) (b : Byte) (k : Lane) (s : State), s.receiving p = true → (p = .fp ∨ p = .jp) →
    b.toNat = laneNumber k →
    ((s.lane k).state = .idle ∨ (s.lane k).state = .acquire ∨ (s.lane k).state = .track →
      Leads (.laneReacquire p [b]) s
        (s.AnsweredOnly p 0x06 (namedState 2 (s.lane k).state.code) [])) ∧
    ((s.lane k).state = .coast ∨ (s.lane k).state = .lost →
      Leads (.laneReacquire p [b]) s fun t =>
        s.Performed p 0x31 [b] [] [.map, .reg, .csc, .lnc, .ten, .queue] t ∧
        ((t.lane k).state = .acquire ∨ ((t.lane k).state = .idle ∧ t.seq k = [])) ∧
        (t.lane k).wref = s.mot.p.shift (-(s.lpm.lp : Int)) ∧ (t.lane k).lref = s.mot.l ∧
        (t.lane k).scale = s.params.value .nominalScale ∧ (t.lane k).missCount = 0 ∧
        (t.lane k).settleRemaining = (s.lane k).settleRemaining ∧
        (t.lane k).settling = (s.lane k).settling ∧
        (t.lane k).strayCount = (s.lane k).strayCount ∧ (t.lane k).g1 = s.params.g1 ∧
        (∀ j, j ≠ k → t.lane j = s.lane j) ∧
        t.csc = { s.csc with fireList := s.disarmedList k } ∧
        (∀ q ∈ t.seq k, ∀ a ∈ q.actions, ∀ f, a.status ≠ .armed f) ∧
        (∀ q ∈ t.seq k,
          q.leadReading = predict (t.lane k).wref (t.lane k).lref (t.lane k).scale q.wLead ∧
          q.tailEvent = (predict (t.lane k).wref (t.lane k).lref (t.lane k).scale
            (q.wLead.plus q.length)).plus (s.params.value (.knifeDistance k)) ∧
          (q.state = .loop → 0 < q.leadReading.diff s.mot.highWater)) ∧
        (s.SerialsUnique → s.EntriesMatch →
          let new := t.lane k
          let threshold := s.params.value .degradationThreshold
          let behind (q : Panel) (a : ActionEntry) : Prop :=
            (s.fireOn k new q a).diff s.mot.highWater ≤ 0
          let waits (y : Panel) (a : ActionEntry) : Prop :=
            (s.reacquired k new y).onWeb = true ∧ a ∈ (s.reacquired k new y).actions ∧ a.status = .pending
          s.Observes k (s.seq k) t ∧
          new.recovery = (counted threshold)^[s.deviations k new] (s.lane k).recovery ∧
          (s.deviations k new = 0 → new.recovery = (s.lane k).recovery) ∧
          (∀ (before after : List Panel) (q : Panel) (e : FireEntry), s.seq k = before ++ q :: after →
            e ∈ s.csc.fireList → e.lane = k → e.serial = q.serial →
            (∃ y ∈ t.residents, y.serial = q.serial) ∧
            ∀ y ∈ t.residents, y.serial = q.serial → ∀ a, y.actions[e.index]? = some a →
              (e.committed = true → a.status = .committed e.f) ∧
              (e.committed = false →
                (¬behind q a → a.status = .pending) ∧
                ((∀ z ∈ before, ∀ b, waits z b → behind z b) →
                  (∀ j b, j ≤ e.index → (s.reacquired k new q).actions[j]? = some b →
                    b.status = .pending → behind q b) → a.status = .missed .notRegistered))) ∧
          ((∀ q ∈ s.seq k, s.donePanel (s.reacquired k new q) = false ∧
              ∀ a, waits q a → ¬behind q a) →
            s.SameBut [.framers, .present, .history, .map, .reg, .csc, .queue] t ∧
            t.map = { s.map with seqs := s.map.seqs.set k (t.seq k) } ∧
            SameButMarks ((s.seq k).map (s.reacquired k new)) (t.seq k) ∧
            t.cnd.queue = placeAll
              (s.rated k threshold (s.lane k).recovery (s.deviationRecords k new)) s.cnd.queue)))

/-! ### Motion and the loop -/

/-- R1 to R8, R83, R130, R134, Table 1-1: a sample of an encoder counts one forward or reverse edge, or an
illegal transition with its record. A forward line edge beyond the high-water is a line advance: the high-water
follows, settle and the index distance count it, and where no action of the web waits to be armed nothing else
changes; FILM BREAK becomes due where the distance exceeds the timeout, but outside RUN and DRAIN only where its
event has not been taken (R134, R157; the watch is assumption 8). A reverse edge that brings the back-off over the
reverse limit halts a line in RUN or DRAIN. One that would bring the back-off to 2^24 lowers the high-water, and a
passage event delivered at the reading left comes again (R6, assumption 35). A line
edge first takes the position events still due (assumption 3), so that these clauses suppose none is; a sample
of unchanged levels changes nothing (assumption 26). The detail of the record is the back-off, by Table 8-3, as
LinesAndStandingConditionsFollowTheState states it. -/
def Obligations.EncoderSamplesMoveTheReadings : Prop :=
  ∀ (x : Phase) (s : State),
    (let old := s.mot.printPhase
      let m := { s.mot with printPhase := x }
      (x = old → exec (.printEdge x) s = .next s) ∧
      (PhaseLeads old x → Leads (.printEdge x) s fun t =>
        s.SameBut [.mot] t ∧ t.mot = { m with p := s.mot.p + 1 }) ∧
      (PhaseLeads x old → Leads (.printEdge x) s fun t =>
        s.SameBut [.mot] t ∧ t.mot = { m with p := s.mot.p - 1 }) ∧
      (x.a ≠ old.a → x.b ≠ old.b → Leads (.printEdge x) s fun t => s.SameBut [.mot, .queue] t ∧
        t.mot = { m with printErrors := min 255 (s.mot.printErrors + 1) } ∧
        t.cnd.queue = placeAll [newRecord (.recovery .encoderPhase) none none (some s.mot.l) (some 0)]
          s.cnd.queue)) ∧
    (s.NothingDue →
      let old := s.mot.linePhase
      let m := { s.mot with linePhase := x }
      (x = old → exec (.lineEdge x) s = .next s) ∧
      (x.a ≠ old.a → x.b ≠ old.b → Leads (.lineEdge x) s fun t => s.SameBut [.mot, .queue] t ∧
        t.mot = { m with lineErrors := min 255 (s.mot.lineErrors + 1) } ∧
        t.cnd.queue = placeAll [newRecord (.recovery .encoderPhase) none none (some s.mot.l) (some 1)]
          s.cnd.queue) ∧
      (PhaseLeads old x → (s.mot.l + 1).diff s.mot.highWater ≤ 0 → Leads (.lineEdge x) s fun t =>
        s.SameBut [.mot] t ∧ t.mot = { m with l := s.mot.l + 1, direction := .forward }) ∧
      (PhaseLeads old x → 0 < (s.mot.l + 1).diff s.mot.highWater → Leads (.lineEdge x) s fun t =>
        s.SameBut [.mot, .map, .reg, .csc, .ten, .lnc, .queue] t ∧
        t.mot = { m with
          l := s.mot.l + 1, direction := .forward, highWater := s.mot.l + 1 } ∧
        (∀ k, (t.lane k).settleRemaining = (s.lane k).settleRemaining - 1 ∧
          (t.lane k).settling = (s.lane k).settling ∧ (t.lane k).wref = (s.lane k).wref ∧
          (t.lane k).lref = (s.lane k).lref ∧ (t.lane k).scale = (s.lane k).scale) ∧
        t.ten = { s.countedTen with duty := t.ten.duty } ∧
        ((∀ k, s.pendingActions k = []) → s.SameBut [.mot, .reg, .ten] t ∧
          (∀ k, t.lane k = { s.lane k with
            settleRemaining := (s.lane k).settleRemaining - 1 }) ∧
          t.ten = s.countedTen)) ∧
      (PhaseLeads x old → s.BackOffHeld →
        let back := { m with
          l := s.mot.l - 1, direction := .reverse
          highWater := if s.backOff = 16777215 then s.mot.highWater - 1 else s.mot.highWater }
        (s.lnc.line.running = true → s.backOff = s.params.value .reverseLimit →
          s.backOff < 16777215 → Leads (.lineEdge x) s fun t =>
            ({ s with mot := back } : State).Halts .reverseLimit t) ∧
        (s.lnc.line.running = false ∨ s.backOff ≠ s.params.value .reverseLimit →
          Leads (.lineEdge x) s fun t => s.SameBut [.mot, .ten] t ∧ t.mot = back ∧
            t.ten = { s.ten with splices := s.ten.splices.map fun y =>
              if s.backOff = 16777215 ∧ y.passage = .delivered ∧ y.nip = s.mot.highWater then
                { y with passage := .ahead } else y })))

/-- R9: at an instant of the timebase the line history takes L_now as its newest entry, its oldest leaving, and
the speed figure is the newest entry minus the oldest, clamped. The millisecond timers of the loop and of the
knives count the instant, and timer events still due come first (assumption 4), so that this supposes none. -/
def Obligations.TimebaseTickTakesTheSpeed : Prop :=
  ∀ (oldest second : Word) (rest : List Word) (s : State), s.NoTimerDue →
    s.mot.history = oldest :: second :: rest →
    Leads .timebaseTick s fun t => s.SameBut [.mot, .lpm, .knc] t ∧
      t.mot = { s.mot with
        history := second :: rest ++ [s.mot.l]
        speed8 := if s.mot.l.diff second < -32767 then -32767
          else if 32767 < s.mot.l.diff second then 32767 else s.mot.l.diff second } ∧
      t.lpm = { s.lpm with sinceSampleMs := min 65535 (s.lpm.sinceSampleMs + 1) } ∧
      ∀ k, t.knife k = { s.knife k with
        firePulseMs :=
          if (s.knife k).fire = true then (s.knife k).firePulseMs + 1 else (s.knife k).firePulseMs
        state := match (s.knife k).state with
          | .stroke r => .stroke { r with timer := r.timer + 100 }
          | other => other }

/-- R11 to R15: a valid sample ends staleness, gives the loop length, and sets the limits' flags by it: the
loop-low-stop indication, the loop-low warning, and the loop reason with the loop-high warning and its
hysteresis, with their records and withdrawals; LOOP LOW halts a line in RUN or DRAIN when the indication comes
to be set (R155, R156) and is a further cause in HALTED (R157). R12: the staleness timer at 10 ms sets staleness,
and LOOP SENSOR halts a line in RUN or DRAIN and is a further cause in HALTED. The limits are evaluated in the
order low stop, low warning, high (assumption 9), with a hysteresis of 0 an Lp at the high limit is high
(assumption 27), and LOOP_STALE is taken whatever the timer shows (assumption 4). The details of the LINE DAMAGE
records are those of Table 8-3, as LinesAndStandingConditionsFollowTheState states them. -/
def Obligations.LoopSamplesSetTheLimits : Prop :=
  (∀ (n : BitVec 12) (s : State),
    let lp := s.params.value .loopOffset + (s.params.value .loopGain * n.toNat + 2048) / 4096
    let isLow := decide (lp ≤ s.params.value .lowStop)
    let warns := decide (lp ≤ s.params.value .lowWarning)
    let high (held : Bool) : Bool :=
      if s.params.value .highLimit ≤ lp then true
      else if lp + s.params.value .hysteresis ≤ s.params.value .highLimit then false else held
    let lpm : Lpm := { s.lpm with
      rxOpen := none, lp := lp, sampleAbsent := false, stale := false, sinceSampleMs := 0,
      lowStop := isLow, lowWarning := warns, loopReason := high s.lpm.loopReason,
      highWarning := high s.lpm.highWarning }
    let queue := fun q => s.warned .loopHigh lp s.lpm.highWarning (high s.lpm.highWarning)
      (s.warned .loopLow lp s.lpm.lowWarning warns q)
    (isLow = false ∨ s.lpm.lowStop = true ∨ s.lnc.line = .ready ∨ s.lnc.line = .offline →
      Leads (.loopSample n) s fun t =>
        s.SameBut [.lpm, .queue] t ∧ t.lpm = lpm ∧ t.cnd.queue = queue s.cnd.queue) ∧
    (isLow = true → s.lpm.lowStop = false → s.lnc.line.running = true →
      Leads (.loopSample n) s fun t => t.lpm = lpm ∧
        ∃ q, t.cnd.queue = queue q ∧
          ({ s with lpm := lpm } : State).Halts .loopLow (t.setQueue q)) ∧
    (isLow = true → s.lpm.lowStop = false → s.lnc.line = .halted →
      Leads (.loopSample n) s fun t => s.SameBut [.lpm, .queue, .log] t ∧ t.lpm = lpm ∧
        ∃ q, t.cnd.queue = queue q ∧
          ({ s with lpm := lpm } : State).TakesFurther .loopLow (t.setQueue q))) ∧
  ∀ s : State,
    (s.lpm.stale = true → exec .loopStale s = .next s) ∧
    (s.lpm.stale = false →
      let lpm : Lpm := { s.lpm with stale := true, sinceSampleMs := 10 }
      (s.lnc.line.running = true → Leads .loopStale s fun t =>
        ({ s with lpm := lpm } : State).Halts .loopSensor t) ∧
      (s.lnc.line = .halted → Leads .loopStale s
        (({ s with lpm := lpm } : State).TakesFurther .loopSensor)) ∧
      (s.lnc.line = .ready ∨ s.lnc.line = .offline → Leads .loopStale s fun t =>
        s.SameBut [.lpm] t ∧ t.lpm = lpm))

/-- R10, R194: a first character opens a sample, in place of one that is open; the second character completes
it, and with correct even parity over the twelve bits the sample is acted on; with wrong parity, with a framing
fault or with bit 6 set in a second character the open sample is discarded; a second character with none open
changes nothing. -/
def Obligations.CharactersCarryOneSample : Prop :=
  ∀ (n : BitVec 12) (c : Byte) (s : State),
    let ones := ((List.range 12).filter fun i => n.getLsbD i).length
    let high := n.toNat / 64
    let low := byteOf (n.toNat % 64)
    let discards (t : State) : Prop := s.SameBut [.lpm] t ∧ t.lpm = { s.lpm with rxOpen := none }
    (c.getLsbD 7 = true → Leads (.loopRxCharacter c true) s fun t =>
      s.SameBut [.lpm] t ∧ t.lpm = { s.lpm with rxOpen := some c }) ∧
    Leads (.loopRxCharacter c false) s discards ∧
    (c.getLsbD 7 = false → c.getLsbD 6 = true → Leads (.loopRxCharacter c true) s discards) ∧
    (s.lpm.rxOpen = none → exec (.loopRxCharacter low true) s = .next s) ∧
    (s.lpm.rxOpen = some (byteOf (128 + 64 * (ones % 2) + high)) →
      exec (.loopRxCharacter low true) s = exec (.loopSample n) s) ∧
    (s.lpm.rxOpen = some (byteOf (128 + 64 * ((ones + 1) % 2) + high)) →
      Leads (.loopRxCharacter low true) s discards)

/-! ### Lanes -/

/-- R72 to R78, R63, R70, R71, Table 4-3: a mark edge of a lane not present, in REVERSE or below high-water is
ignored. Otherwise the lane loads its copy of G1, and the expiry of its expected mark moves with the window; an
expiry that the move puts at or behind the high-water is taken there, and the edge is judged after it (R71,
assumption 10). An edge outside the window, or with no expected mark, is stray: the count rises, and each sixteenth
makes a STRAY MARKS record, counted for the lane (R89). An edge within it is accepted: the reference, the scale by
R76 and R77 (but for the width left open by assumption 2), the mark's error, TRACK, and first the records of R78,
each counted, with LANE RECOVERY RATE behind them where the count reaches the threshold; the next PENDING mark is
expected on the new reference, and one already behind the sensor passes unobserved (R68, R69). Window and gain are
wide while the flag settling stands (assumption 7). Then the hand-on of R65, with the new predictions of every panel
(R42, R43): an ARMED entry takes its new fire position in the order of R90, is COMMITTED within 300 counts (R99),
and at or behind the high-water has its fire event taken, by Table 5-3 and R103 (a deadline behind is assumption
30); a COMMITTED entry keeps its own and has its deviation assessed, with CUT DEVIATION, counted (R89), and the void
DEVIATION (R100), entry by entry in fire list order (assumption 29). The account of the entries supposes that each
stands on its action (R90, StepKeepsEntriesAndExpectedMarks) and that of their order that no two were armed at one
number (assumption 36, StepKeepsListBounds); the exact account of the hand-on supposes that no action of the lane is
PENDING, no panel enters WEB or becomes DONE, and no fire event follows. -/
def Obligations.MarkEdgesAreJudged : Prop :=
  (∀ (k : Lane) (s : State), s.params.isPresent k = false ∨ s.mot.direction = .reverse ∨
    s.mot.l ≠ s.mot.highWater → exec (.markEdge k) s = .next s) ∧
  (∀ r : LaneRec,
    let wide (n : Nat) : Nat := if r.settling = true then
        max n (min r.g1.acquireWindow (4 * r.g1.trackWindow)) else n
    (r.state = .acquire → r.window = wide r.g1.acquireWindow) ∧
    (r.state = .track → r.window = wide r.g1.trackWindow) ∧
    (r.state = .coast →
      r.window = wide (min r.g1.acquireWindow (r.g1.trackWindow * (1 + r.missCount))))) ∧
  ∀ (k : Lane) (s : State), s.params.isPresent k = true → s.mot.direction = .forward →
    s.mot.l = s.mot.highWater →
    let loaded : LaneRec := { s.lane k with g1 := s.params.g1 }
    let moved (x : Expected) : Expected := { x with
      expiry := x.pred.plus (loaded.window + 1 + s.params.value (.sensorDistance k)) }
    let r : LaneRec := { loaded with expected := loaded.expected.map moved }
    let obs := s.mot.l.shift (-(s.params.value (.sensorDistance k) : Int))
    (∀ (x : Expected) (u : State), loaded.expected = some x → moved x ≠ x →
      (moved x).expiry.diff s.mot.highWater ≤ 0 →
      exec (.windowExpiry k) { s with reg := { lanes := s.reg.lanes.set k r } } = .next u →
      exec (.markEdge k) s = exec (.markEdge k) u) ∧
    ((∀ x, loaded.expected = some x → moved x = x ∨ 0 < (moved x).expiry.diff s.mot.highWater) →
    ((∀ x, r.expected = some x → (r.window : Int) < |obs.diff x.pred|) →
      let n := r.strayCount + 1
      let record := newRecord (.recovery .strayMarks) (some k) none (some s.mot.l) (some n.toNat)
      let rate := s.rateRecord k r.g1.degradationThreshold
      (n.toNat % 16 ≠ 0 → Leads (.markEdge k) s fun t => s.SameBut [.reg] t ∧
        t.reg = { lanes := s.reg.lanes.set k { r with strayCount := n } }) ∧
      (n.toNat % 16 = 0 → r.recovery + 1 < r.g1.degradationThreshold →
        Leads (.markEdge k) s fun t => s.SameBut [.reg, .queue] t ∧
          t.reg = { lanes := s.reg.lanes.set k { r with
            strayCount := n, recovery := r.recovery + 1 } } ∧
          t.cnd.queue = placeAll [record] s.cnd.queue) ∧
      (n.toNat % 16 = 0 → r.g1.degradationThreshold ≤ r.recovery + 1 →
        Leads (.markEdge k) s fun t => s.SameBut [.reg, .queue] t ∧
          t.reg = { lanes := s.reg.lanes.set k { r with strayCount := n, recovery := 0 } } ∧
          t.cnd.queue = placeAll [record, rate] s.cnd.queue)) ∧
    ∀ (x : Expected) (q : Panel), r.expected = some x → |obs.diff x.pred| ≤ (r.window : Int) →
      s.SerialsUnique → s.OutfeedFlagFollows → q ∈ s.seq k → q.serial = x.serial →
      let travel := obs.diff r.lref
      let span := x.w.diff r.wref
      let gain : Nat := if r.settling = true then min 16 (2 * r.g1.gain) else r.g1.gain
      let measured : Nat := if travel ≤ 0 then 0
        else (2 * travel.toNat * 1000000 + span.toNat) / (2 * span.toNat)
      let clamped := clampInt 980000 1030000 measured
      let scales : Prop := r.state ≠ .acquire ∧ (r.g1.minimumSpan : Int) ≤ span
      let records : List Record :=
        (if decide scales && clamped != measured then
          [newRecord (.recovery .stretchLimit) (some k) (some (q.serial, q.tag)) (some s.mot.l)
            (some (min 2147483647 measured))] else []) ++
        (if r.state = .coast then
          [newRecord (.recovery .markReacquired) (some k) (some (q.serial, q.tag)) (some s.mot.l)
            (some r.missCount)] else [])
      let threshold := r.g1.degradationThreshold
      let recovery := (counted threshold)^[records.length] r.recovery
      let reports : List Record := records ++ (s.rated k threshold r.recovery records).filter
        fun x => x.cause == .degradation .laneRecoveryRate
      Leads (.markEdge k) s fun t =>
        s.SameBut [.map, .reg, .csc, .knc, .ten, .lnc, .queue] t ∧
        (∀ j, j ≠ k → t.lane j = s.lane j) ∧
        ((t.lane k).state = .track ∨ ((t.lane k).state = .idle ∧ t.seq k = [])) ∧
        (t.lane k).wref = x.w ∧ (t.lane k).lref = obs ∧ (t.lane k).missCount = 0 ∧
        (t.lane k).g1 = s.params.g1 ∧ (t.lane k).strayCount = r.strayCount ∧
        (t.lane k).settleRemaining = r.settleRemaining ∧ (t.lane k).settling = r.settling ∧
        (¬scales → (t.lane k).scale = r.scale) ∧
        (scales → travel.toNat * 1000000 < 281474976710656 → ((t.lane k).scale : Int) =
          clampInt 980000 1030000 (r.scale + ((clamped - r.scale) * gain).tdiv 16)) ∧
        (¬scales ∨ travel.toNat * 1000000 < 281474976710656 →
          ∃ more, t.cnd.queue = placeAll (reports ++ more) s.cnd.queue) ∧
        s.Observes k (withMark (s.seq k) q.serial x.index (.accepted (obs.diff x.pred))) t ∧
        (∀ y ∈ t.residents, y.serial = q.serial → ∀ m, y.marks[x.index]? = some m →
          m.status = .accepted (obs.diff x.pred)) ∧
        (∀ y ∈ t.seq k,
          y.leadReading = predict x.w obs (t.lane k).scale y.wLead ∧
          y.tailEvent = (predict x.w obs (t.lane k).scale (y.wLead.plus y.length)).plus
            (s.params.value (.knifeDistance k)) ∧
          (y.state = .loop → 0 < y.leadReading.diff s.mot.highWater)) ∧
        (s.EntriesMatch →
          let new := t.lane k
          let ahead (e : FireEntry) : Int := (s.newFire k new e).diff s.mot.highWater
          (¬scales ∨ travel.toNat * 1000000 < 281474976710656 →
            new.recovery = (counted threshold)^[s.deviations k new] recovery) ∧
          (s.pendingActions k = [] →
            (∀ y ∈ s.seq k, (y.state = .loop →
                0 < (s.revisedPanel k new y).leadReading.diff s.mot.highWater) ∧
              (y.onWeb = true → 0 < (s.revisedPanel k new y).tailEvent.diff s.mot.highWater)) →
            (∀ e ∈ s.csc.fireList, e.lane = k → e.committed = false → 0 < ahead e) →
            s.SameBut [.map, .reg, .csc, .queue] t ∧
            t.map = { s.map with seqs := s.map.seqs.set k (t.seq k) } ∧
            SameButMarks ((s.seq k).map (s.revisedPanel k new)) (t.seq k) ∧
            t.csc.armings = s.csc.armings ∧
            t.csc.fireList.Perm (s.csc.fireList.map (s.revised k new)) ∧
            (s.OrdersDistinct → s.FireListOrdered → t.FireListOrdered) ∧
            (¬scales ∨ travel.toNat * 1000000 < 281474976710656 → t.cnd.queue = placeAll
              (reports ++ s.rated k threshold recovery (s.deviationRecords k new)) s.cnd.queue)) ∧
          ∀ (pre post : List FireEntry) (e : FireEntry), s.csc.fireList = pre ++ e :: post →
            e.lane = k → e.committed = false → ahead e ≤ 0 →
            (∀ y ∈ pre, y.lane = k → y.committed = true ∨ 0 < ahead y) →
            (∀ y ∈ s.csc.fireList, y.lane = k → y.committed = false → y.deadline = none) →
            let becomes (st : ActionStatus) : Prop :=
              ∀ y ∈ t.residents, y.serial = e.serial → ∀ a, y.actions[e.index]? = some a → a.status = st
            let waits := ∃ y ∈ s.csc.fireList, y.lane = k ∧ y.deadline ≠ none
            let deadline := (s.newFire k new e).plus (s.params.value .cutTolerance + 1)
            (s.lnc.line = .ready ∨ s.lnc.line = .offline → becomes (.missed .jog)) ∧
            (s.lnc.line = .halted → becomes (.missed .lineDamage)) ∧
            (s.lnc.line.running = true →
              ((s.knife k).state = .fault ∨ (s.knife k).state = .disabled →
                becomes (.missed .knifeUnavailable)) ∧
              ((s.knife k).state = .ready → becomes .fired ∧
                (t.knife k).state = .stroke {
                  phase := if (s.knife k).home = true then .leaving else .away, timer := 0,
                  timeoutMs := s.params.value .strokeTimeout, kind := e.kind, serial := e.serial,
                  index := e.index }) ∧
              (∀ r', (s.knife k).state = .stroke r' →
                (waits ∨ deadline.diff s.mot.highWater ≤ 0 → becomes (.missed .knifeBusy)) ∧
                (¬waits → 0 < deadline.diff s.mot.highWater → { e with
                  f := s.newFire k new e, committed := true, deadline := some deadline }
                    ∈ t.csc.fireList)))))

/-- R79 to R81, R85, R63: at its window expiry the expected mark is MISSED and the lane's miss count and state
follow: ACQUIRE counts, TRACK goes to COAST, COAST counts, and beyond the coast limit or the coast distance the lane
is LOST, with its LANE DAMAGE record and error log entry (which shows the lane LOST, assumption 20). R85, R107: its
ARMED entries leave the fire list in fire list order, each action MISSED, REG LOST, and each such panel takes the
void cause REG LOST unless it has one (R46), with its PANEL LOSS record, ANCILLARY, after the LANE DAMAGE record;
its COMMITTED entries stay. The next PENDING mark is expected, those already behind the sensor passing unobserved,
and none in LOST, where marks stay PENDING (R68, R69, R85). Where the lane's state stays, or no action of it is
PENDING, nothing else changes; a lane that goes to COAST is scanned (R94), and what the scan does leaves the other
lanes and the lane's reference. R84: at the end of settle the window and the gain are no longer wide (the flag
settling is assumption 7), and the expiry of the expected mark moves; one that the move puts at or behind the
high-water is taken there, as a window expiry of the narrowed lane (R71). An event that is not due changes nothing
(assumption 3). -/
def Obligations.ExpiriesAndSettleEndsMoveTheLane : Prop :=
  ∀ (k : Lane) (s : State),
    ((∀ x, (s.lane k).expected = some x → 0 < x.expiry.diff s.mot.highWater) →
      exec (.windowExpiry k) s = .next s) ∧
    (∀ (x : Expected) (q : Panel), (s.lane k).expected = some x →
      x.expiry.diff s.mot.highWater ≤ 0 → s.SerialsUnique → q ∈ s.seq k → q.serial = x.serial →
      let r : LaneRec := { s.lane k with g1 := s.params.g1 }
      let n := if r.state = .track then 1 else r.missCount + 1
      let far := r.state ≠ .acquire ∧ r.state ≠ .track ∧
        (r.g1.coastDistance : Int) < x.w.diff r.wref
      let isLost := r.g1.coastLimit ≤ n ∨ far
      let observes (t : State) : Prop :=
        s.Observes k (withMark (s.seq k) q.serial x.index .missed) t
      let markIsMissed (t : State) : Prop := ∀ y ∈ t.residents, y.serial = q.serial →
        ∀ m, y.marks[x.index]? = some m → m.status = .missed
      (¬isLost → Leads (.windowExpiry k) s fun t =>
        s.SameBut [.reg, .map, .csc, .ten, .lnc, .queue] t ∧ markIsMissed t ∧ observes t ∧
        (∀ j, j ≠ k → t.lane j = s.lane j) ∧
        (t.lane k = { r with
            missCount := n, state := if r.state = .track then .coast else r.state,
            expected := (t.lane k).expected } ∨
          t.seq k = [] ∧ t.lane k = { r with missCount := 0, state := .idle, expected := none })) ∧
      (¬isLost → r.state ≠ .track ∨ s.pendingActions k = [] → Leads (.windowExpiry k) s fun t =>
        s.SameBut [.reg, .map] t ∧
        t.reg = { lanes := s.reg.lanes.set k { r with
          missCount := n, state := if r.state = .track then .coast else r.state,
          expected := (t.lane k).expected } } ∧
        (∀ y, (t.lane k).expected = some y → 0 < y.expiry.diff s.mot.highWater) ∧
        t.map = { s.map with seqs := s.map.seqs.set k (t.seq k) } ∧
        SameButMarks (s.seq k) (t.seq k) ∧ markIsMissed t) ∧
      (isLost → Leads (.windowExpiry k) s fun t =>
        s.SameBut [.reg, .map, .csc, .ten, .lnc, .queue, .log] t ∧ markIsMissed t ∧ observes t ∧
        (∀ j, j ≠ k → t.lane j = s.lane j) ∧
        ((t.lane k).state = .lost ∨ ((t.lane k).state = .idle ∧ t.seq k = [])) ∧
        (t.lane k).expected = none ∧ (∀ e ∈ t.csc.fireList, e.lane = k → e.committed = true) ∧
        s.cnd.log.Gains
          { cause := .laneDamage .regLost, lane := some k, position := s.mot.l, detail := n,
            line := s.lnc.line, laneStates := (s.reg.lanes.map (·.state)).set k .lost,
            scales := s.reg.lanes.map (·.scale), history := s.cnd.history } t.cnd.log ∧
        (s.EntriesMatch →
          let damage := newRecord (.laneDamage .regLost) (some k) (some (q.serial, q.tag))
            (some s.mot.l) (some n)
          t.csc = { s.csc with fireList := s.disarmedList k } ∧
          (∀ e ∈ s.armedOf k, ∀ y ∈ s.seq k, y.serial = e.serial →
            (∃ z ∈ t.residents, z.serial = e.serial) ∧
            ∀ z ∈ t.residents, z.serial = e.serial →
              z.voidCause = some (y.voidCause.getD .regLost) ∧
              ∀ a, z.actions[e.index]? = some a → a.status = .missed .regLost) ∧
          (s.OutfeedFlagFollows → ∃ records : List Record,
            t.cnd.queue = placeAll (damage :: records) s.cnd.queue ∧
            ∀ e ∈ s.armedOf k, ∀ y ∈ s.seq k, y.serial = e.serial → y.voidCause = none →
              ∃ i, s.lostRecord k y i ∈ records) ∧
          (s.QuietLane k → s.SameBut [.reg, .map, .csc, .queue, .log] t ∧
            t.reg = { lanes := s.reg.lanes.set k { r with
              missCount := n, state := .lost, expected := none } } ∧
            t.map = { s.map with seqs := s.map.seqs.set k (t.seq k) } ∧
            SameButMarks ((s.seq k).map (s.lostPanel k)) (t.seq k) ∧
            t.cnd.queue = placeAll (damage :: s.lostRecords k) s.cnd.queue)) ∧
        (s.pendingActions k = [] → (∀ e ∈ s.csc.fireList, e.lane = k → e.committed = true) →
          s.SameBut [.reg, .map, .queue, .log] t ∧
          t.reg = { lanes := s.reg.lanes.set k { r with
            missCount := n, state := .lost, expected := none } } ∧
          t.map = { s.map with seqs := s.map.seqs.set k (t.seq k) } ∧
          SameButMarks (s.seq k) (t.seq k) ∧
          t.cnd.queue = placeAll [newRecord (.laneDamage .regLost) (some k)
            (some (q.serial, q.tag)) (some s.mot.l) (some n)] s.cnd.queue))) ∧
    ((s.lane k).settling = false ∨ (s.lane k).settleRemaining ≠ 0 →
      exec (.settleEnd k) s = .next s) ∧
    ((s.lane k).settling = true → (s.lane k).settleRemaining = 0 →
      let r : LaneRec := { s.lane k with settling := false }
      let moved (x : Expected) : Expected := { x with
        expiry := x.pred.plus (r.window + 1 + s.params.value (.sensorDistance k)) }
      let narrowed : State := { s with
        reg := { lanes := s.reg.lanes.set k { r with expected := r.expected.map moved } } }
      ((∀ x, r.expected = some x → moved x = x ∨ 0 < (moved x).expiry.diff s.mot.highWater) →
        exec (.settleEnd k) s = .next narrowed) ∧
      (∀ x, r.expected = some x → moved x ≠ x → (moved x).expiry.diff s.mot.highWater ≤ 0 →
        exec (.settleEnd k) s = exec (.windowExpiry k) narrowed))

/-- R43, R44, R45, R49, R52, R54, R66, R154, Tables 3-2 and 3-5: at a lead event the panel leaves LOOP for WEB;
where no action of its lane is within the arming horizon, nothing else changes but marks and the expected mark.
These follow R68 and R69, at a lead event and at a tail event, where the window expiry that stood is still ahead. At
a tail event the finished panel is DONE with its disposition and joins the outfeed list, or the waiting list while
that is full; an emptied lane is IDLE, and an emptied line ends a drain. An event that is not due changes nothing
(assumption 3). -/
def Obligations.LeadAndTailEventsMoveThePanel : Prop :=
  ∀ (k : Lane) (s : State),
    ((∀ q ∈ s.seq k, q.state = .loop → 0 < q.leadReading.diff s.mot.highWater) →
      exec (.leadEvent k) s = .next s) ∧
    (∀ (pre post : List Panel) (q : Panel), s.SerialsUnique → s.seq k = pre ++ q :: post →
      q.state = .loop → q.leadReading.diff s.mot.highWater ≤ 0 →
      (∀ y ∈ pre, y.state = .loop → 0 < y.leadReading.diff s.mot.highWater) →
      Leads (.leadEvent k) s fun t =>
        s.SameBut [.map, .reg, .csc, .ten, .lnc, .queue] t ∧
        (∃ y ∈ t.residents, y.serial = q.serial) ∧
        (∀ y ∈ t.residents, y.serial = q.serial → y.state = .web ∨ y.state = .done) ∧
        (s.ExpectedFollows → s.ExpiryAhead k → s.Observes k (s.seq k) t) ∧
        ((∀ y ∈ s.seq k, y.onWeb = true ∨ y = q → ∀ a ∈ y.actions, a.status = .pending →
            4000 < (s.firePosition k (y.wLead.plus a.offset) (s.leadNow k)).diff s.mot.highWater) →
          s.SameBut [.map, .reg] t ∧
          t.map = { s.map with seqs := s.map.seqs.set k (t.seq k) } ∧
          SameButMarks (pre ++ q.inState .web :: post) (t.seq k) ∧
          t.reg = { lanes := s.reg.lanes.set k { s.lane k with
            expected := (t.lane k).expected } })) ∧
    ((∀ q ∈ s.seq k, q.onWeb = true → (∀ a ∈ q.actions, a.status.resolved = true) →
        0 < q.tailEvent.diff s.mot.highWater) → exec (.tailEvent k) s = .next s) ∧
    (∀ (pre post : List Panel) (q : Panel), s.SerialsUnique → s.seq k = pre ++ q :: post →
      s.donePanel q = true → (∀ y ∈ pre, s.donePanel y = false) → s.PoolsFit →
      s.OutfeedFlagFollows →
      Leads (.tailEvent k) s (s.Finishes k (pre ++ post) q))

/-! ### The cut scheduler -/

/-- R94 to R96, R64, R90 to R93, R97, R98: at a line advance the first PENDING action of a lane is tested on its
predicted fire position. At or behind the high-water it misses: TOO LATE TO ARM in TRACK and COAST, NOT REGISTERED
in ACQUIRE, REG LOST in LOST, with the void of Table 3-4 and its record (R106, R46, R47), and the panel becomes DONE
where that was its last unresolved action and its tail event is reached (R45). Ahead of it, in ACQUIRE and LOST it
waits (R96); in TRACK and COAST (R95) with three entries of the lane it waits; within 300 counts it is COMMITTED at
once, within 4,000 ARMED, with its entry in its place by fire position and arming (assumption 36); beyond, it
waits. Beside that the advance moves the high-water, settle and the index distance alone (the watch of the latter is
assumption 8). The clauses suppose that this action alone is PENDING and that no position event is due
(assumption 3). -/
def Obligations.ArmingFollowsTheFirePosition : Prop :=
  ∀ (x : Phase) (k : Lane) (pre post : List Panel) (q : Panel) (i : Nat) (a : ActionEntry) (s : State),
    s.NothingDue → PhaseLeads s.mot.linePhase x → 0 < (s.mot.l + 1).diff s.mot.highWater →
    s.SerialsUnique → s.OrdersFit → s.PoolsFit → s.OutfeedFlagFollows →
    (s.lane k).state ≠ .idle → s.seq k = pre ++ q :: post →
    q.actions[i]? = some a → q.onWeb = true → a.status = .pending →
    (∀ j, j ≠ k → s.pendingActions j = []) →
    s.pendingActions k = [⟨q.serial, i, a.kind, q.wLead.plus a.offset⟩] →
    ((q.wLead.plus a.offset).diff (s.lane k).wref).natAbs * (s.lane k).scale < 281474976710656 →
    let tAct := s.params.value (.actuationTime k)
    let lead : Nat := if s.mot.speed8 ≤ 0 then 0
      else min 2000 ((s.mot.speed8.toNat * tAct + 4000) / 8000)
    let r := s.lane k
    let past := (q.wLead.plus a.offset).diff r.wref
    let term : Int := ((past.natAbs * r.scale + 500000) / 1000000 : Nat)
    let f := (r.lref.shift (if past < 0 then -term else term)).shift
      ((s.params.value (.knifeDistance k) : Int) - lead)
    let d := f.diff (s.mot.l + 1)
    let advanced : State := { s with
      mot := { s.mot with
        linePhase := x, l := s.mot.l + 1, direction := .forward, highWater := s.mot.l + 1 }
      reg := { lanes := s.reg.lanes.map fun r => { r with settleRemaining := r.settleRemaining - 1 } }
      ten := s.countedTen }
    let arms := r.state = .track ∨ r.state = .coast
    let cause : MissCause := if r.state = .acquire then .notRegistered
      else if r.state = .lost then .regLost else .tooLateToArm
    let v : VoidCause := if r.state = .lost then .regLost else .missedCut
    let becomes (y : Panel) : PanelMap :=
      { s.map with seqs := s.map.seqs.set k (pre ++ y :: post) }
    let missed : Panel :=
      { q.withAction i (.missed cause) with voidCause := some (q.voidCause.getD v) }
    let afterMiss : State := { advanced with
      map := becomes missed
      cnd := { s.cnd with
        queue := if q.voidCause = none then
            placeAll [{ newRecord (.panelLoss v) (some k) (some (q.serial, q.tag)) (some (s.mot.l + 1))
                (some (i : Int)) with
              backedUp := q.actions.all fun b => !(b.status == .fired || b.status == .late)
              ancillary := v == .regLost }] s.cnd.queue
          else s.cnd.queue } }
    let armed (isCommitted : Bool) (t : State) : Prop :=
      advanced.SameBut [.map, .csc] t ∧ t.csc.armings = s.csc.armings + 1 ∧
      (∃ before after, s.csc.fireList = before ++ after ∧
        t.csc.fireList = before ++
          { lane := k, serial := q.serial, index := i, kind := a.kind, f := f,
            heldLead := lead, committed := isCommitted, deadline := none,
            order := s.csc.armings } :: after ∧
        (∀ e ∈ before, e.f.diff (s.mot.l + 1) ≤ d) ∧
        ∀ e ∈ after.head?, d < e.f.diff (s.mot.l + 1)) ∧
      t.map = becomes (q.withAction i (if isCommitted = true then .committed f else .armed f))
    (d ≤ 0 →
      (advanced.donePanel missed = false → exec (.lineEdge x) s = .next afterMiss) ∧
      (advanced.donePanel missed = true →
        Leads (.lineEdge x) s (afterMiss.Finishes k (pre ++ post) missed))) ∧
    (0 < d → ¬arms ∨ 3 ≤ (s.laneEntries k).length ∨ 4000 < d →
      exec (.lineEdge x) s = .next advanced) ∧
    (0 < d → arms → (s.laneEntries k).length < 3 →
      (d ≤ 300 → Leads (.lineEdge x) s (armed true)) ∧
      (300 < d → d ≤ 4000 → Leads (.lineEdge x) s (armed false)))

/-- R98: at F − 300 an ARMED entry and its action become COMMITTED. Table 5-3, R101 to R106: a fire event in READY
or OFFLINE misses, JOG; in HALTED it misses, LINE DAMAGE; in RUN and DRAIN it misses, KNIFE UNAVAILABLE, where
the knife is in FAULT or DISABLED, waits where it is in STROKE, or misses, KNIFE BUSY, behind an entry that
waits, and begins a stroke where the knife is READY (R112), the action FIRED. A wait whose deadline is already
behind ends at once, KNIFE BUSY (assumption 30). R104: at its deadline a waiting entry misses, KNIFE BUSY. The
lane is quiet: no action of it is PENDING and no tail event reached; an event that is not due changes nothing
(assumption 3). -/
def Obligations.FireListEventsFollowTheKnife : Prop :=
  ∀ (k : Lane) (s : State),
    let mine (e : FireEntry) : Prop := e ∈ s.csc.fireList ∧ e.lane = k
    let early (e : FireEntry) : Prop :=
      e.committed = false ∧ (e.f.shift (-300)).diff s.mot.highWater ≤ 0
    let fires (e : FireEntry) : Prop := e.deadline = none ∧ e.f.diff s.mot.highWater ≤ 0
    let ends (e : FireEntry) : Prop := ∃ w, e.deadline = some w ∧ w.diff s.mot.highWater ≤ 0
    ((∀ e, mine e → ¬early e) → exec (.commit k) s = .next s) ∧
    ((∀ e, mine e → ¬fires e) → exec (.fireEvent k) s = .next s) ∧
    ((∀ e, mine e → ¬ends e) → exec (.deadline k) s = .next s) ∧
    ∀ (pre post : List FireEntry) (e : FireEntry) (q : Panel),
      s.csc.fireList = pre ++ e :: post → e.lane = k → s.SerialsUnique → q ∈ s.seq k →
      q.serial = e.serial →
      (∀ y ∈ pre ++ post, ¬(y.lane = k ∧ y.serial = e.serial ∧ y.index = e.index)) →
      let become (f : Panel → Panel) : PanelMap :=
        { s.map with seqs := s.map.seqs.set k ((s.seq k).map fun y => if y = q then f q else y) }
      (early e → (∀ y ∈ pre, y.lane = k → ¬early y) → Leads (.commit k) s fun t =>
        s.SameBut [.map, .csc] t ∧
        t.csc = { s.csc with fireList := pre ++ { e with committed := true } :: post } ∧
        t.map = become fun y => y.withAction e.index (.committed e.f)) ∧
      (ends e → (∀ y ∈ pre, y.lane = k → ¬ends y) → s.QuietLane k →
        Leads (.deadline k) s (s.Misses k q e .knifeBusy .missedCut)) ∧
      (fires e → (∀ y ∈ pre, y.lane = k → ¬fires y) → s.QuietLane k →
        (s.lnc.line = .ready ∨ s.lnc.line = .offline →
          Leads (.fireEvent k) s (s.Misses k q e .jog .jog)) ∧
        (s.lnc.line = .halted →
          Leads (.fireEvent k) s (s.Misses k q e .lineDamage .lineDamage)) ∧
        (s.lnc.line = .run ∨ s.lnc.line = .drain →
          ((s.knife k).state = .fault ∨ (s.knife k).state = .disabled →
            Leads (.fireEvent k) s (s.Misses k q e .knifeUnavailable .missedCut)) ∧
          (∀ r, (s.knife k).state = .stroke r →
            let deadline := e.f.plus (s.params.value .cutTolerance + 1)
            ((∀ y ∈ pre ++ post, y.lane = k → y.deadline = none) →
              0 < deadline.diff s.mot.highWater → Leads (.fireEvent k) s fun t =>
                s.SameBut [.csc] t ∧ t.csc = { s.csc with
                  fireList := pre ++ { e with deadline := some deadline } :: post }) ∧
            ((∃ y ∈ pre ++ post, y.lane = k ∧ y.deadline ≠ none) ∨
                deadline.diff s.mot.highWater ≤ 0 →
              Leads (.fireEvent k) s (s.Misses k q e .knifeBusy .missedCut))) ∧
          ((s.knife k).state = .ready → Leads (.fireEvent k) s fun t =>
            s.SameBut [.map, .csc, .knc] t ∧ t.csc = { s.csc with fireList := pre ++ post } ∧
            t.map = become (fun y => { y.withAction e.index .fired with
              state := if y.state = .web then .cutting else y.state }) ∧
            t.knc = { knives := s.knc.knives.set k { s.knife k with
              state := .stroke {
                phase := if (s.knife k).home = true then .leaving else .away, timer := 0,
                timeoutMs := s.params.value .strokeTimeout, kind := e.kind, serial := e.serial,
                index := e.index },
              fire := true, firePulseMs := 0, depthHigh := e.kind == .cut } })))

/-! ### Knife lines -/

/-- R112 to R115, R121 to R123, R104, R105, R114: the end of the fire pulse; the home input leaving and returning
in each knife state and phase; the stroke that ends at a home return, with its wear rows, their tests, and the
entry that waits: fired LATE, or missed, JOG in READY and OFFLINE, LINE DAMAGE in HALTED, KNIFE UNAVAILABLE where the
knife becomes DISABLED (R104); and the stroke that times out, to FAULT, with its LANE DAMAGE record and error log
entry, a waiting entry then missed likewise. A return later than the timeout is taken as the timeout first
(assumption 17), events of the input without a change do nothing (assumption 25), FIRE_PULSE_END and STROKE_TIMEOUT
are taken whatever the timers show (assumption 4), and the wear records stand before those of the waiting entry
(assumption 21). -/
def Obligations.KnifeLinesEndTheStroke : Prop :=
  ∀ (k : Lane) (s : State),
    let n := s.knife k
    let becomes (m : Knife) : Knc := { knives := s.knc.knives.set k m }
    let rated := s.params.value .ratedLife
    let nominal := s.params.value .nominalStrokeTime
    let strokes := min 16777215 (n.strokes + 1)
    let life := 1 + 252 * (rated - strokes) / rated
    let lifeFalls := decide (life ≤ s.params.value (.lifeThreshold k)) && !n.lifeLatch
    let counted : Knife := { n with
      strokes := strokes, lifeN := life, lifeWorst := min n.lifeWorst life
      lifeLatch := n.lifeLatch || lifeFalls
      preFail := n.preFail || (lifeFalls && decide (s.params.value (.lifeFlag k) = 1)) }
    let worn (detail : Nat) : Record :=
      newRecord (.degradation .knifeWear) (some k) none (some s.mot.l) (some detail)
    let lifeRecord := if lifeFalls then [worn (1000 + life)] else []
    let noneWaits := ∀ e ∈ s.csc.fireList, e.lane = k → e.deadline = none
    Leads (.firePulseEnd k) s (fun t => s.SameBut [.knc] t ∧
      t.knc = becomes { n with fire := false }) ∧
    (n.home = false → exec (.homeLeave k) s = .next s) ∧
    (n.home = true → Leads (.homeLeave k) s fun t => s.SameBut [.knc] t ∧
      t.knc = becomes { n with
        home := false
        state := match n.state with
          | .stroke r => .stroke { r with phase := .away }
          | other => other }) ∧
    (∀ d, n.home = true → exec (.homeReturn k d) s = .next s) ∧
    (∀ d, n.home = false → (∀ r, n.state = .stroke r → r.phase = .leaving) →
      Leads (.homeReturn k d) s fun t => s.SameBut [.knc] t ∧
        t.knc = becomes { n with home := true }) ∧
    (∀ (d : Nat) (r : Stroke), n.home = false → n.state = .stroke r → r.phase = .away →
      d ≤ r.timeoutMs * 100 →
      let mean := (n.mean + ((d : Int) - n.mean).tdiv 8).toNat
      let time := max 1 (253 - ((mean - nominal) * 252 + nominal / 2) / nominal)
      let timeFalls := decide (time ≤ s.params.value (.timeThreshold k)) && !n.timeLatch
      let idle : Knife := { counted with
        home := true, fire := false, disablePending := false
        state := if n.disablePending = true then .disabled else .ready
        lastDuration := some d, mean := mean, timeN := time, timeWorst := min n.timeWorst time
        timeLatch := n.timeLatch || timeFalls
        preFail := counted.preFail || (timeFalls && decide (s.params.value (.timeFlag k) = 1)) }
      let wear := lifeRecord ++ if timeFalls then [worn (2000 + time)] else []
      (noneWaits → Leads (.homeReturn k d) s fun t => s.SameBut [.knc, .queue] t ∧
        t.knc = becomes idle ∧ t.cnd.queue = placeAll wear s.cnd.queue) ∧
      ∀ (pre post : List FireEntry) (e : FireEntry) (q : Panel),
        s.csc.fireList = pre ++ e :: post → e.lane = k → e.deadline ≠ none →
        (∀ y ∈ pre, y.lane = k → y.deadline = none) →
        (∀ y ∈ pre ++ post, ¬(y.lane = k ∧ y.serial = e.serial ∧ y.index = e.index)) →
        s.SerialsUnique → q ∈ s.seq k → q.serial = e.serial → s.QuietLane k →
        let ended : State := { s with
          knc := becomes idle, cnd := { s.cnd with queue := placeAll wear s.cnd.queue } }
        (s.lnc.line = .ready ∨ s.lnc.line = .offline →
          Leads (.homeReturn k d) s (ended.Misses k q e .jog .jog)) ∧
        (s.lnc.line = .halted →
          Leads (.homeReturn k d) s (ended.Misses k q e .lineDamage .lineDamage)) ∧
        (s.lnc.line.running = true → n.disablePending = true →
          Leads (.homeReturn k d) s (ended.Misses k q e .knifeUnavailable .missedCut)) ∧
        (s.lnc.line.running = true → n.disablePending = false →
        let late := newRecord (.recovery .cutLate) (some k) (some (q.serial, q.tag)) (some s.mot.l)
          (some (s.mot.l.diff e.f))
        let reaches := (s.lane k).g1.degradationThreshold ≤ (s.lane k).recovery + 1
        Leads (.homeReturn k d) s fun t =>
          s.SameBut [.map, .csc, .reg, .knc, .queue] t ∧
          t.csc = { s.csc with fireList := pre ++ post } ∧
          t.map = { s.map with seqs := s.map.seqs.set k ((s.seq k).map fun y =>
            if y = q then { q.withAction e.index .late with
              state := if q.state = .web then .cutting else q.state } else y) } ∧
          t.knc = becomes { idle with
            state := .stroke {
              phase := .leaving, timer := 0, timeoutMs := s.params.value .strokeTimeout,
              kind := e.kind, serial := e.serial, index := e.index },
            fire := true, firePulseMs := 0, depthHigh := e.kind == .cut } ∧
          t.reg = { lanes := s.reg.lanes.set k { s.lane k with
            recovery := if reaches then 0 else (s.lane k).recovery + 1 } } ∧
          t.cnd.queue = placeAll (wear ++ [late] ++ if reaches then
            [newRecord (.degradation .laneRecoveryRate) (some k) none (some s.mot.l)
              (some (s.lane k).g1.degradationThreshold)] else []) s.cnd.queue)) ∧
    ((∀ r, n.state ≠ .stroke r) → exec (.strokeTimeout k) s = .next s) ∧
    ∀ r : Stroke, n.state = .stroke r →
      let broken : Knife := { counted with state := .fault, fire := false, disablePending := false }
      let panel : Option (Half × Half) → Prop
        | none => ∀ q ∈ s.residentsOf k, q.serial ≠ r.serial
        | some (serial, tag) => serial = r.serial ∧
          ∃ q ∈ s.residentsOf k, q.serial = serial ∧ q.tag = tag
      let broke (home : Bool) : State := { s with
        knc := becomes { broken with home := home }
        cnd := { s.cnd with queue := placeAll lifeRecord s.cnd.queue } }
      let reported (u t : State) : Prop :=
        u.SameBut [.queue, .log] t ∧
        s.cnd.log.Gains
          { cause := .laneDamage .knifeTimeout, lane := some k, position := s.mot.l,
            detail := r.timeoutMs, line := s.lnc.line, laneStates := s.reg.lanes.map (·.state),
            scales := s.reg.lanes.map (·.scale), history := s.cnd.history } t.cnd.log ∧
        ∃ p, panel p ∧ t.cnd.queue = placeAll
          [newRecord (.laneDamage .knifeTimeout) (some k) p (some s.mot.l) (some r.timeoutMs)]
          u.cnd.queue
      let ends (home : Bool) (t : State) : Prop :=
        (noneWaits → reported (broke home) t) ∧
        ∀ (pre post : List FireEntry) (e : FireEntry) (q : Panel),
          s.csc.fireList = pre ++ e :: post → e.lane = k → e.deadline ≠ none →
          (∀ y ∈ pre, y.lane = k → y.deadline = none) →
          (∀ y ∈ pre ++ post, ¬(y.lane = k ∧ y.serial = e.serial ∧ y.index = e.index)) →
          s.SerialsUnique → q ∈ s.seq k → q.serial = e.serial → s.QuietLane k →
          ∃ u : State, reported u t ∧
            (s.lnc.line = .ready ∨ s.lnc.line = .offline → (broke home).Misses k q e .jog .jog u) ∧
            (s.lnc.line = .halted → (broke home).Misses k q e .lineDamage .lineDamage u) ∧
            (s.lnc.line.running = true →
              (broke home).Misses k q e .knifeUnavailable .missedCut u)
      Leads (.strokeTimeout k) s (ends n.home) ∧
      ∀ d, n.home = false → r.phase = .away → r.timeoutMs * 100 < d →
        Leads (.homeReturn k d) s (ends true)
end

