-- ==== Sys2Proof/Laws/Arith.lean ====
section
/-! SUPPORT. The ranges of the figures: scales, leads, wear attributes, the speed figure and the duty. -/

namespace Sys2Proof.Machine

theorem clampScale_legal (n : Nat) : LegalScale (clampScale n) := by
  unfold LegalScale clampScale
  have : Config.scaleMin = 980000 := rfl
  have : Config.scaleMax = 1030000 := rfl
  omega

/-- R77: whatever the measurement, the new scale is legal. -/
theorem steppedScale_legal (scale m gain : Nat) : LegalScale (steppedScale scale m gain) :=
  clampScale_legal _

/-- A legal scale is its own clamp. -/
theorem clampScale_of_legal {n : Nat} (h : LegalScale n) : clampScale n = n := by
  unfold LegalScale at h
  unfold clampScale
  have : Config.scaleMin = 980000 := rfl
  have : Config.scaleMax = 1030000 := rfl
  omega

/-- R92: the lead never exceeds 2,000. -/
theorem leadOf_le (speed8 : Int) (t : Nat) : leadOf speed8 t ≤ 2000 := by
  unfold leadOf
  split
  · exact Nat.zero_le _
  · exact min_le_left ..

/-- N of STROKE LIFE lies in 1..253. -/
theorem lifeN_range (rated strokes : Nat) : 1 ≤ lifeN rated strokes ∧ lifeN rated strokes ≤ 253 := by
  unfold lifeN
  refine ⟨Nat.le_add_right .., ?_⟩
  rcases Nat.eq_zero_or_pos rated with rfl | h
  · simp
  · have : 252 * (rated - strokes) / rated ≤ 252 :=
      Nat.div_le_of_le_mul (by rw [Nat.mul_comm rated]; exact Nat.mul_le_mul_left _ (Nat.sub_le ..))
    omega

/-- N of STROKE TIME lies in 1..253. -/
theorem timeN_range (nominal m : Nat) : 1 ≤ timeN nominal m ∧ timeN nominal m ≤ 253 := by
  unfold timeN
  generalize ((m - nominal) * 252 + nominal / 2) / nominal = x
  omega

theorem clampInt_range {lo hi : Int} (h : lo ≤ hi) (x : Int) :
    lo ≤ clampInt lo hi x ∧ clampInt lo hi x ≤ hi := by
  unfold clampInt
  omega

/-- R132: the computed duty is never below min duty, and not above max duty where that is not below min
duty. -/
theorem dutyOf_range (base c cFull lo hi : Nat) :
    lo ≤ dutyOf base c cFull lo hi ∧ (lo ≤ hi → dutyOf base c cFull lo hi ≤ hi) := by
  unfold dutyOf
  generalize (base * c + cFull / 2) / cFull = x
  omega

/-- A product below 2^48 is held as itself. -/
theorem heldProduct_of_lt {n : Nat} (h : n < 281474976710656) : heldProduct n = n := if_pos h

end Sys2Proof.Machine
end

