-- ==== Sys2Proof/Laws/State.lean ====
section
/-! SUPPORT. The small lemmas of State's updates: one per field and update, true by rfl, and the get and
set laws of the tables per lane and per port. -/

namespace Sys2Proof.Machine

/-! ### setMot -/

@[simp] theorem State.setMot_mot (s : State) (b : Mot) : (s.setMot b).mot = b := rfl
@[simp] theorem State.setMot_lpm (s : State) (b : Mot) : (s.setMot b).lpm = s.lpm := rfl
@[simp] theorem State.setMot_pls (s : State) (b : Mot) : (s.setMot b).pls = s.pls := rfl
@[simp] theorem State.setMot_map (s : State) (b : Mot) : (s.setMot b).map = s.map := rfl
@[simp] theorem State.setMot_reg (s : State) (b : Mot) : (s.setMot b).reg = s.reg := rfl
@[simp] theorem State.setMot_csc (s : State) (b : Mot) : (s.setMot b).csc = s.csc := rfl
@[simp] theorem State.setMot_knc (s : State) (b : Mot) : (s.setMot b).knc = s.knc := rfl
@[simp] theorem State.setMot_ten (s : State) (b : Mot) : (s.setMot b).ten = s.ten := rfl
@[simp] theorem State.setMot_lnc (s : State) (b : Mot) : (s.setMot b).lnc = s.lnc := rfl
@[simp] theorem State.setMot_cnd (s : State) (b : Mot) : (s.setMot b).cnd = s.cnd := rfl
@[simp] theorem State.setMot_pif (s : State) (b : Mot) : (s.setMot b).pif = s.pif := rfl
@[simp] theorem State.setMot_pending (s : State) (b : Mot) : (s.setMot b).pending = s.pending := rfl

/-! ### setLpm -/

@[simp] theorem State.setLpm_mot (s : State) (b : Lpm) : (s.setLpm b).mot = s.mot := rfl
@[simp] theorem State.setLpm_lpm (s : State) (b : Lpm) : (s.setLpm b).lpm = b := rfl
@[simp] theorem State.setLpm_pls (s : State) (b : Lpm) : (s.setLpm b).pls = s.pls := rfl
@[simp] theorem State.setLpm_map (s : State) (b : Lpm) : (s.setLpm b).map = s.map := rfl
@[simp] theorem State.setLpm_reg (s : State) (b : Lpm) : (s.setLpm b).reg = s.reg := rfl
@[simp] theorem State.setLpm_csc (s : State) (b : Lpm) : (s.setLpm b).csc = s.csc := rfl
@[simp] theorem State.setLpm_knc (s : State) (b : Lpm) : (s.setLpm b).knc = s.knc := rfl
@[simp] theorem State.setLpm_ten (s : State) (b : Lpm) : (s.setLpm b).ten = s.ten := rfl
@[simp] theorem State.setLpm_lnc (s : State) (b : Lpm) : (s.setLpm b).lnc = s.lnc := rfl
@[simp] theorem State.setLpm_cnd (s : State) (b : Lpm) : (s.setLpm b).cnd = s.cnd := rfl
@[simp] theorem State.setLpm_pif (s : State) (b : Lpm) : (s.setLpm b).pif = s.pif := rfl
@[simp] theorem State.setLpm_pending (s : State) (b : Lpm) : (s.setLpm b).pending = s.pending := rfl

/-! ### setPls -/

@[simp] theorem State.setPls_mot (s : State) (b : Pls) : (s.setPls b).mot = s.mot := rfl
@[simp] theorem State.setPls_lpm (s : State) (b : Pls) : (s.setPls b).lpm = s.lpm := rfl
@[simp] theorem State.setPls_pls (s : State) (b : Pls) : (s.setPls b).pls = b := rfl
@[simp] theorem State.setPls_map (s : State) (b : Pls) : (s.setPls b).map = s.map := rfl
@[simp] theorem State.setPls_reg (s : State) (b : Pls) : (s.setPls b).reg = s.reg := rfl
@[simp] theorem State.setPls_csc (s : State) (b : Pls) : (s.setPls b).csc = s.csc := rfl
@[simp] theorem State.setPls_knc (s : State) (b : Pls) : (s.setPls b).knc = s.knc := rfl
@[simp] theorem State.setPls_ten (s : State) (b : Pls) : (s.setPls b).ten = s.ten := rfl
@[simp] theorem State.setPls_lnc (s : State) (b : Pls) : (s.setPls b).lnc = s.lnc := rfl
@[simp] theorem State.setPls_cnd (s : State) (b : Pls) : (s.setPls b).cnd = s.cnd := rfl
@[simp] theorem State.setPls_pif (s : State) (b : Pls) : (s.setPls b).pif = s.pif := rfl
@[simp] theorem State.setPls_pending (s : State) (b : Pls) : (s.setPls b).pending = s.pending := rfl

/-! ### setMap -/

@[simp] theorem State.setMap_mot (s : State) (b : PanelMap) : (s.setMap b).mot = s.mot := rfl
@[simp] theorem State.setMap_lpm (s : State) (b : PanelMap) : (s.setMap b).lpm = s.lpm := rfl
@[simp] theorem State.setMap_pls (s : State) (b : PanelMap) : (s.setMap b).pls = s.pls := rfl
@[simp] theorem State.setMap_map (s : State) (b : PanelMap) : (s.setMap b).map = b := rfl
@[simp] theorem State.setMap_reg (s : State) (b : PanelMap) : (s.setMap b).reg = s.reg := rfl
@[simp] theorem State.setMap_csc (s : State) (b : PanelMap) : (s.setMap b).csc = s.csc := rfl
@[simp] theorem State.setMap_knc (s : State) (b : PanelMap) : (s.setMap b).knc = s.knc := rfl
@[simp] theorem State.setMap_ten (s : State) (b : PanelMap) : (s.setMap b).ten = s.ten := rfl
@[simp] theorem State.setMap_lnc (s : State) (b : PanelMap) : (s.setMap b).lnc = s.lnc := rfl
@[simp] theorem State.setMap_cnd (s : State) (b : PanelMap) : (s.setMap b).cnd = s.cnd := rfl
@[simp] theorem State.setMap_pif (s : State) (b : PanelMap) : (s.setMap b).pif = s.pif := rfl
@[simp] theorem State.setMap_pending (s : State) (b : PanelMap) : (s.setMap b).pending = s.pending := rfl

/-! ### setReg -/

@[simp] theorem State.setReg_mot (s : State) (b : Reg) : (s.setReg b).mot = s.mot := rfl
@[simp] theorem State.setReg_lpm (s : State) (b : Reg) : (s.setReg b).lpm = s.lpm := rfl
@[simp] theorem State.setReg_pls (s : State) (b : Reg) : (s.setReg b).pls = s.pls := rfl
@[simp] theorem State.setReg_map (s : State) (b : Reg) : (s.setReg b).map = s.map := rfl
@[simp] theorem State.setReg_reg (s : State) (b : Reg) : (s.setReg b).reg = b := rfl
@[simp] theorem State.setReg_csc (s : State) (b : Reg) : (s.setReg b).csc = s.csc := rfl
@[simp] theorem State.setReg_knc (s : State) (b : Reg) : (s.setReg b).knc = s.knc := rfl
@[simp] theorem State.setReg_ten (s : State) (b : Reg) : (s.setReg b).ten = s.ten := rfl
@[simp] theorem State.setReg_lnc (s : State) (b : Reg) : (s.setReg b).lnc = s.lnc := rfl
@[simp] theorem State.setReg_cnd (s : State) (b : Reg) : (s.setReg b).cnd = s.cnd := rfl
@[simp] theorem State.setReg_pif (s : State) (b : Reg) : (s.setReg b).pif = s.pif := rfl
@[simp] theorem State.setReg_pending (s : State) (b : Reg) : (s.setReg b).pending = s.pending := rfl

/-! ### setCsc -/

@[simp] theorem State.setCsc_mot (s : State) (b : Csc) : (s.setCsc b).mot = s.mot := rfl
@[simp] theorem State.setCsc_lpm (s : State) (b : Csc) : (s.setCsc b).lpm = s.lpm := rfl
@[simp] theorem State.setCsc_pls (s : State) (b : Csc) : (s.setCsc b).pls = s.pls := rfl
@[simp] theorem State.setCsc_map (s : State) (b : Csc) : (s.setCsc b).map = s.map := rfl
@[simp] theorem State.setCsc_reg (s : State) (b : Csc) : (s.setCsc b).reg = s.reg := rfl
@[simp] theorem State.setCsc_csc (s : State) (b : Csc) : (s.setCsc b).csc = b := rfl
@[simp] theorem State.setCsc_knc (s : State) (b : Csc) : (s.setCsc b).knc = s.knc := rfl
@[simp] theorem State.setCsc_ten (s : State) (b : Csc) : (s.setCsc b).ten = s.ten := rfl
@[simp] theorem State.setCsc_lnc (s : State) (b : Csc) : (s.setCsc b).lnc = s.lnc := rfl
@[simp] theorem State.setCsc_cnd (s : State) (b : Csc) : (s.setCsc b).cnd = s.cnd := rfl
@[simp] theorem State.setCsc_pif (s : State) (b : Csc) : (s.setCsc b).pif = s.pif := rfl
@[simp] theorem State.setCsc_pending (s : State) (b : Csc) : (s.setCsc b).pending = s.pending := rfl

/-! ### setKnc -/

@[simp] theorem State.setKnc_mot (s : State) (b : Knc) : (s.setKnc b).mot = s.mot := rfl
@[simp] theorem State.setKnc_lpm (s : State) (b : Knc) : (s.setKnc b).lpm = s.lpm := rfl
@[simp] theorem State.setKnc_pls (s : State) (b : Knc) : (s.setKnc b).pls = s.pls := rfl
@[simp] theorem State.setKnc_map (s : State) (b : Knc) : (s.setKnc b).map = s.map := rfl
@[simp] theorem State.setKnc_reg (s : State) (b : Knc) : (s.setKnc b).reg = s.reg := rfl
@[simp] theorem State.setKnc_csc (s : State) (b : Knc) : (s.setKnc b).csc = s.csc := rfl
@[simp] theorem State.setKnc_knc (s : State) (b : Knc) : (s.setKnc b).knc = b := rfl
@[simp] theorem State.setKnc_ten (s : State) (b : Knc) : (s.setKnc b).ten = s.ten := rfl
@[simp] theorem State.setKnc_lnc (s : State) (b : Knc) : (s.setKnc b).lnc = s.lnc := rfl
@[simp] theorem State.setKnc_cnd (s : State) (b : Knc) : (s.setKnc b).cnd = s.cnd := rfl
@[simp] theorem State.setKnc_pif (s : State) (b : Knc) : (s.setKnc b).pif = s.pif := rfl
@[simp] theorem State.setKnc_pending (s : State) (b : Knc) : (s.setKnc b).pending = s.pending := rfl

/-! ### setTen -/

@[simp] theorem State.setTen_mot (s : State) (b : Ten) : (s.setTen b).mot = s.mot := rfl
@[simp] theorem State.setTen_lpm (s : State) (b : Ten) : (s.setTen b).lpm = s.lpm := rfl
@[simp] theorem State.setTen_pls (s : State) (b : Ten) : (s.setTen b).pls = s.pls := rfl
@[simp] theorem State.setTen_map (s : State) (b : Ten) : (s.setTen b).map = s.map := rfl
@[simp] theorem State.setTen_reg (s : State) (b : Ten) : (s.setTen b).reg = s.reg := rfl
@[simp] theorem State.setTen_csc (s : State) (b : Ten) : (s.setTen b).csc = s.csc := rfl
@[simp] theorem State.setTen_knc (s : State) (b : Ten) : (s.setTen b).knc = s.knc := rfl
@[simp] theorem State.setTen_ten (s : State) (b : Ten) : (s.setTen b).ten = b := rfl
@[simp] theorem State.setTen_lnc (s : State) (b : Ten) : (s.setTen b).lnc = s.lnc := rfl
@[simp] theorem State.setTen_cnd (s : State) (b : Ten) : (s.setTen b).cnd = s.cnd := rfl
@[simp] theorem State.setTen_pif (s : State) (b : Ten) : (s.setTen b).pif = s.pif := rfl
@[simp] theorem State.setTen_pending (s : State) (b : Ten) : (s.setTen b).pending = s.pending := rfl

/-! ### setLnc -/

@[simp] theorem State.setLnc_mot (s : State) (b : Lnc) : (s.setLnc b).mot = s.mot := rfl
@[simp] theorem State.setLnc_lpm (s : State) (b : Lnc) : (s.setLnc b).lpm = s.lpm := rfl
@[simp] theorem State.setLnc_pls (s : State) (b : Lnc) : (s.setLnc b).pls = s.pls := rfl
@[simp] theorem State.setLnc_map (s : State) (b : Lnc) : (s.setLnc b).map = s.map := rfl
@[simp] theorem State.setLnc_reg (s : State) (b : Lnc) : (s.setLnc b).reg = s.reg := rfl
@[simp] theorem State.setLnc_csc (s : State) (b : Lnc) : (s.setLnc b).csc = s.csc := rfl
@[simp] theorem State.setLnc_knc (s : State) (b : Lnc) : (s.setLnc b).knc = s.knc := rfl
@[simp] theorem State.setLnc_ten (s : State) (b : Lnc) : (s.setLnc b).ten = s.ten := rfl
@[simp] theorem State.setLnc_lnc (s : State) (b : Lnc) : (s.setLnc b).lnc = b := rfl
@[simp] theorem State.setLnc_cnd (s : State) (b : Lnc) : (s.setLnc b).cnd = s.cnd := rfl
@[simp] theorem State.setLnc_pif (s : State) (b : Lnc) : (s.setLnc b).pif = s.pif := rfl
@[simp] theorem State.setLnc_pending (s : State) (b : Lnc) : (s.setLnc b).pending = s.pending := rfl

/-! ### setCnd -/

@[simp] theorem State.setCnd_mot (s : State) (b : Cnd) : (s.setCnd b).mot = s.mot := rfl
@[simp] theorem State.setCnd_lpm (s : State) (b : Cnd) : (s.setCnd b).lpm = s.lpm := rfl
@[simp] theorem State.setCnd_pls (s : State) (b : Cnd) : (s.setCnd b).pls = s.pls := rfl
@[simp] theorem State.setCnd_map (s : State) (b : Cnd) : (s.setCnd b).map = s.map := rfl
@[simp] theorem State.setCnd_reg (s : State) (b : Cnd) : (s.setCnd b).reg = s.reg := rfl
@[simp] theorem State.setCnd_csc (s : State) (b : Cnd) : (s.setCnd b).csc = s.csc := rfl
@[simp] theorem State.setCnd_knc (s : State) (b : Cnd) : (s.setCnd b).knc = s.knc := rfl
@[simp] theorem State.setCnd_ten (s : State) (b : Cnd) : (s.setCnd b).ten = s.ten := rfl
@[simp] theorem State.setCnd_lnc (s : State) (b : Cnd) : (s.setCnd b).lnc = s.lnc := rfl
@[simp] theorem State.setCnd_cnd (s : State) (b : Cnd) : (s.setCnd b).cnd = b := rfl
@[simp] theorem State.setCnd_pif (s : State) (b : Cnd) : (s.setCnd b).pif = s.pif := rfl
@[simp] theorem State.setCnd_pending (s : State) (b : Cnd) : (s.setCnd b).pending = s.pending := rfl

/-! ### setPif -/

@[simp] theorem State.setPif_mot (s : State) (b : Pif) : (s.setPif b).mot = s.mot := rfl
@[simp] theorem State.setPif_lpm (s : State) (b : Pif) : (s.setPif b).lpm = s.lpm := rfl
@[simp] theorem State.setPif_pls (s : State) (b : Pif) : (s.setPif b).pls = s.pls := rfl
@[simp] theorem State.setPif_map (s : State) (b : Pif) : (s.setPif b).map = s.map := rfl
@[simp] theorem State.setPif_reg (s : State) (b : Pif) : (s.setPif b).reg = s.reg := rfl
@[simp] theorem State.setPif_csc (s : State) (b : Pif) : (s.setPif b).csc = s.csc := rfl
@[simp] theorem State.setPif_knc (s : State) (b : Pif) : (s.setPif b).knc = s.knc := rfl
@[simp] theorem State.setPif_ten (s : State) (b : Pif) : (s.setPif b).ten = s.ten := rfl
@[simp] theorem State.setPif_lnc (s : State) (b : Pif) : (s.setPif b).lnc = s.lnc := rfl
@[simp] theorem State.setPif_cnd (s : State) (b : Pif) : (s.setPif b).cnd = s.cnd := rfl
@[simp] theorem State.setPif_pif (s : State) (b : Pif) : (s.setPif b).pif = b := rfl
@[simp] theorem State.setPif_pending (s : State) (b : Pif) : (s.setPif b).pending = s.pending := rfl

/-! ### setLane -/

@[simp] theorem State.setLane_mot (s : State) (k : Lane) (r : LaneRec) : (s.setLane k r).mot = s.mot := rfl
@[simp] theorem State.setLane_lpm (s : State) (k : Lane) (r : LaneRec) : (s.setLane k r).lpm = s.lpm := rfl
@[simp] theorem State.setLane_pls (s : State) (k : Lane) (r : LaneRec) : (s.setLane k r).pls = s.pls := rfl
@[simp] theorem State.setLane_map (s : State) (k : Lane) (r : LaneRec) : (s.setLane k r).map = s.map := rfl
@[simp] theorem State.setLane_csc (s : State) (k : Lane) (r : LaneRec) : (s.setLane k r).csc = s.csc := rfl
@[simp] theorem State.setLane_knc (s : State) (k : Lane) (r : LaneRec) : (s.setLane k r).knc = s.knc := rfl
@[simp] theorem State.setLane_ten (s : State) (k : Lane) (r : LaneRec) : (s.setLane k r).ten = s.ten := rfl
@[simp] theorem State.setLane_lnc (s : State) (k : Lane) (r : LaneRec) : (s.setLane k r).lnc = s.lnc := rfl
@[simp] theorem State.setLane_cnd (s : State) (k : Lane) (r : LaneRec) : (s.setLane k r).cnd = s.cnd := rfl
@[simp] theorem State.setLane_pif (s : State) (k : Lane) (r : LaneRec) : (s.setLane k r).pif = s.pif := rfl
@[simp] theorem State.setLane_pending (s : State) (k : Lane) (r : LaneRec) : (s.setLane k r).pending = s.pending := rfl

/-! ### setKnife -/

@[simp] theorem State.setKnife_mot (s : State) (k : Lane) (n : Knife) : (s.setKnife k n).mot = s.mot := rfl
@[simp] theorem State.setKnife_lpm (s : State) (k : Lane) (n : Knife) : (s.setKnife k n).lpm = s.lpm := rfl
@[simp] theorem State.setKnife_pls (s : State) (k : Lane) (n : Knife) : (s.setKnife k n).pls = s.pls := rfl
@[simp] theorem State.setKnife_map (s : State) (k : Lane) (n : Knife) : (s.setKnife k n).map = s.map := rfl
@[simp] theorem State.setKnife_reg (s : State) (k : Lane) (n : Knife) : (s.setKnife k n).reg = s.reg := rfl
@[simp] theorem State.setKnife_csc (s : State) (k : Lane) (n : Knife) : (s.setKnife k n).csc = s.csc := rfl
@[simp] theorem State.setKnife_ten (s : State) (k : Lane) (n : Knife) : (s.setKnife k n).ten = s.ten := rfl
@[simp] theorem State.setKnife_lnc (s : State) (k : Lane) (n : Knife) : (s.setKnife k n).lnc = s.lnc := rfl
@[simp] theorem State.setKnife_cnd (s : State) (k : Lane) (n : Knife) : (s.setKnife k n).cnd = s.cnd := rfl
@[simp] theorem State.setKnife_pif (s : State) (k : Lane) (n : Knife) : (s.setKnife k n).pif = s.pif := rfl
@[simp] theorem State.setKnife_pending (s : State) (k : Lane) (n : Knife) : (s.setKnife k n).pending = s.pending := rfl

/-! ### setSeq -/

@[simp] theorem State.setSeq_mot (s : State) (k : Lane) (ps : List Panel) : (s.setSeq k ps).mot = s.mot := rfl
@[simp] theorem State.setSeq_lpm (s : State) (k : Lane) (ps : List Panel) : (s.setSeq k ps).lpm = s.lpm := rfl
@[simp] theorem State.setSeq_pls (s : State) (k : Lane) (ps : List Panel) : (s.setSeq k ps).pls = s.pls := rfl
@[simp] theorem State.setSeq_reg (s : State) (k : Lane) (ps : List Panel) : (s.setSeq k ps).reg = s.reg := rfl
@[simp] theorem State.setSeq_csc (s : State) (k : Lane) (ps : List Panel) : (s.setSeq k ps).csc = s.csc := rfl
@[simp] theorem State.setSeq_knc (s : State) (k : Lane) (ps : List Panel) : (s.setSeq k ps).knc = s.knc := rfl
@[simp] theorem State.setSeq_ten (s : State) (k : Lane) (ps : List Panel) : (s.setSeq k ps).ten = s.ten := rfl
@[simp] theorem State.setSeq_lnc (s : State) (k : Lane) (ps : List Panel) : (s.setSeq k ps).lnc = s.lnc := rfl
@[simp] theorem State.setSeq_cnd (s : State) (k : Lane) (ps : List Panel) : (s.setSeq k ps).cnd = s.cnd := rfl
@[simp] theorem State.setSeq_pif (s : State) (k : Lane) (ps : List Panel) : (s.setSeq k ps).pif = s.pif := rfl
@[simp] theorem State.setSeq_pending (s : State) (k : Lane) (ps : List Panel) : (s.setSeq k ps).pending = s.pending := rfl

/-! ### setPlans -/

@[simp] theorem State.setPlans_mot (s : State) (k : Lane) (ps : List Plan) : (s.setPlans k ps).mot = s.mot := rfl
@[simp] theorem State.setPlans_lpm (s : State) (k : Lane) (ps : List Plan) : (s.setPlans k ps).lpm = s.lpm := rfl
@[simp] theorem State.setPlans_map (s : State) (k : Lane) (ps : List Plan) : (s.setPlans k ps).map = s.map := rfl
@[simp] theorem State.setPlans_reg (s : State) (k : Lane) (ps : List Plan) : (s.setPlans k ps).reg = s.reg := rfl
@[simp] theorem State.setPlans_csc (s : State) (k : Lane) (ps : List Plan) : (s.setPlans k ps).csc = s.csc := rfl
@[simp] theorem State.setPlans_knc (s : State) (k : Lane) (ps : List Plan) : (s.setPlans k ps).knc = s.knc := rfl
@[simp] theorem State.setPlans_ten (s : State) (k : Lane) (ps : List Plan) : (s.setPlans k ps).ten = s.ten := rfl
@[simp] theorem State.setPlans_lnc (s : State) (k : Lane) (ps : List Plan) : (s.setPlans k ps).lnc = s.lnc := rfl
@[simp] theorem State.setPlans_cnd (s : State) (k : Lane) (ps : List Plan) : (s.setPlans k ps).cnd = s.cnd := rfl
@[simp] theorem State.setPlans_pif (s : State) (k : Lane) (ps : List Plan) : (s.setPlans k ps).pif = s.pif := rfl
@[simp] theorem State.setPlans_pending (s : State) (k : Lane) (ps : List Plan) : (s.setPlans k ps).pending = s.pending := rfl

/-! ### setFramer -/

@[simp] theorem State.setFramer_mot (s : State) (p : Port) (f : Framer) : (s.setFramer p f).mot = s.mot := rfl
@[simp] theorem State.setFramer_lpm (s : State) (p : Port) (f : Framer) : (s.setFramer p f).lpm = s.lpm := rfl
@[simp] theorem State.setFramer_pls (s : State) (p : Port) (f : Framer) : (s.setFramer p f).pls = s.pls := rfl
@[simp] theorem State.setFramer_map (s : State) (p : Port) (f : Framer) : (s.setFramer p f).map = s.map := rfl
@[simp] theorem State.setFramer_reg (s : State) (p : Port) (f : Framer) : (s.setFramer p f).reg = s.reg := rfl
@[simp] theorem State.setFramer_csc (s : State) (p : Port) (f : Framer) : (s.setFramer p f).csc = s.csc := rfl
@[simp] theorem State.setFramer_knc (s : State) (p : Port) (f : Framer) : (s.setFramer p f).knc = s.knc := rfl
@[simp] theorem State.setFramer_ten (s : State) (p : Port) (f : Framer) : (s.setFramer p f).ten = s.ten := rfl
@[simp] theorem State.setFramer_lnc (s : State) (p : Port) (f : Framer) : (s.setFramer p f).lnc = s.lnc := rfl
@[simp] theorem State.setFramer_cnd (s : State) (p : Port) (f : Framer) : (s.setFramer p f).cnd = s.cnd := rfl
@[simp] theorem State.setFramer_pending (s : State) (p : Port) (f : Framer) : (s.setFramer p f).pending = s.pending := rfl

/-! ### setQueue -/

@[simp] theorem State.setQueue_mot (s : State) (q : List Record) : (s.setQueue q).mot = s.mot := rfl
@[simp] theorem State.setQueue_lpm (s : State) (q : List Record) : (s.setQueue q).lpm = s.lpm := rfl
@[simp] theorem State.setQueue_pls (s : State) (q : List Record) : (s.setQueue q).pls = s.pls := rfl
@[simp] theorem State.setQueue_map (s : State) (q : List Record) : (s.setQueue q).map = s.map := rfl
@[simp] theorem State.setQueue_reg (s : State) (q : List Record) : (s.setQueue q).reg = s.reg := rfl
@[simp] theorem State.setQueue_csc (s : State) (q : List Record) : (s.setQueue q).csc = s.csc := rfl
@[simp] theorem State.setQueue_knc (s : State) (q : List Record) : (s.setQueue q).knc = s.knc := rfl
@[simp] theorem State.setQueue_ten (s : State) (q : List Record) : (s.setQueue q).ten = s.ten := rfl
@[simp] theorem State.setQueue_lnc (s : State) (q : List Record) : (s.setQueue q).lnc = s.lnc := rfl
@[simp] theorem State.setQueue_pif (s : State) (q : List Record) : (s.setQueue q).pif = s.pif := rfl
@[simp] theorem State.setQueue_pending (s : State) (q : List Record) : (s.setQueue q).pending = s.pending := rfl

/-! ### setFireList -/

@[simp] theorem State.setFireList_mot (s : State) (es : List FireEntry) : (s.setFireList es).mot = s.mot := rfl
@[simp] theorem State.setFireList_lpm (s : State) (es : List FireEntry) : (s.setFireList es).lpm = s.lpm := rfl
@[simp] theorem State.setFireList_pls (s : State) (es : List FireEntry) : (s.setFireList es).pls = s.pls := rfl
@[simp] theorem State.setFireList_map (s : State) (es : List FireEntry) : (s.setFireList es).map = s.map := rfl
@[simp] theorem State.setFireList_reg (s : State) (es : List FireEntry) : (s.setFireList es).reg = s.reg := rfl
@[simp] theorem State.setFireList_knc (s : State) (es : List FireEntry) : (s.setFireList es).knc = s.knc := rfl
@[simp] theorem State.setFireList_ten (s : State) (es : List FireEntry) : (s.setFireList es).ten = s.ten := rfl
@[simp] theorem State.setFireList_lnc (s : State) (es : List FireEntry) : (s.setFireList es).lnc = s.lnc := rfl
@[simp] theorem State.setFireList_cnd (s : State) (es : List FireEntry) : (s.setFireList es).cnd = s.cnd := rfl
@[simp] theorem State.setFireList_pif (s : State) (es : List FireEntry) : (s.setFireList es).pif = s.pif := rfl
@[simp] theorem State.setFireList_pending (s : State) (es : List FireEntry) : (s.setFireList es).pending = s.pending := rfl

/-! ### Tables per lane and per port -/

@[simp] theorem PerLane.get_set_same {α : Type} (t : PerLane α) (k : Lane) (a : α) :
    (t.set k a).get k = a := by cases k <;> rfl

theorem PerLane.get_set_ne {α : Type} (t : PerLane α) {j k : Lane} (a : α) (h : j ≠ k) :
    (t.set k a).get j = t.get j := by cases j <;> cases k <;> first | rfl | exact absurd rfl h

theorem PerLane.get_set {α : Type} (t : PerLane α) (j k : Lane) (a : α) :
    (t.set k a).get j = if j = k then a else t.get j := by cases j <;> cases k <;> rfl

@[simp] theorem PerLane.get_map {α β : Type} (f : α → β) (t : PerLane α) (k : Lane) :
    (t.map f).get k = f (t.get k) := by cases k <;> rfl

@[simp] theorem PerLane.get_all {α : Type} (a : α) (k : Lane) : (PerLane.all a).get k = a := by
  cases k <;> rfl

@[simp] theorem PerPort.get_set_same {α : Type} (t : PerPort α) (p : Port) (a : α) :
    (t.set p a).get p = a := by cases p <;> rfl

theorem PerPort.get_set_ne {α : Type} (t : PerPort α) {q p : Port} (a : α) (h : q ≠ p) :
    (t.set p a).get q = t.get q := by cases q <;> cases p <;> first | rfl | exact absurd rfl h

theorem PerPort.get_set {α : Type} (t : PerPort α) (q p : Port) (a : α) :
    (t.set p a).get q = if q = p then a else t.get q := by cases q <;> cases p <;> rfl

@[simp] theorem PerPort.get_all {α : Type} (a : α) (p : Port) : (PerPort.all a).get p = a := by
  cases p <;> rfl

@[simp] theorem Locks.get_set_same (t : Locks) (g : Group) (h : Option Port) :
    (t.set g h).get g = h := by cases g <;> rfl

theorem Locks.get_set_ne (t : Locks) {f g : Group} (h : Option Port) (hne : f ≠ g) :
    (t.set g h).get f = t.get f := by cases f <;> cases g <;> first | rfl | exact absurd rfl hne

/-! ### What one lane, knife, sequence, queue or framer reads after an update -/

theorem State.lane_setLane (s : State) (j k : Lane) (r : LaneRec) :
    (s.setLane k r).lane j = if j = k then r else s.lane j := PerLane.get_set ..

@[simp] theorem State.lane_setLane_same (s : State) (k : Lane) (r : LaneRec) :
    (s.setLane k r).lane k = r := PerLane.get_set_same ..

theorem State.knife_setKnife (s : State) (j k : Lane) (n : Knife) :
    (s.setKnife k n).knife j = if j = k then n else s.knife j := PerLane.get_set ..

@[simp] theorem State.knife_setKnife_same (s : State) (k : Lane) (n : Knife) :
    (s.setKnife k n).knife k = n := PerLane.get_set_same ..

theorem State.seq_setSeq (s : State) (j k : Lane) (ps : List Panel) :
    (s.setSeq k ps).seq j = if j = k then ps else s.seq j := PerLane.get_set ..

@[simp] theorem State.seq_setSeq_same (s : State) (k : Lane) (ps : List Panel) :
    (s.setSeq k ps).seq k = ps := PerLane.get_set_same ..

theorem State.plans_setPlans (s : State) (j k : Lane) (ps : List Plan) :
    (s.setPlans k ps).plans j = if j = k then ps else s.plans j := PerLane.get_set ..

@[simp] theorem State.plans_setPlans_same (s : State) (k : Lane) (ps : List Plan) :
    (s.setPlans k ps).plans k = ps := PerLane.get_set_same ..

theorem State.framer_setFramer (s : State) (q p : Port) (f : Framer) :
    (s.setFramer p f).framer q = if q = p then f else s.framer q := PerPort.get_set ..

@[simp] theorem State.framer_setFramer_same (s : State) (p : Port) (f : Framer) :
    (s.setFramer p f).framer p = f := PerPort.get_set_same ..

@[simp] theorem State.setQueue_queue (s : State) (q : List Record) :
    (s.setQueue q).cnd.queue = q := rfl
@[simp] theorem State.setFireList_fireList (s : State) (es : List FireEntry) :
    (s.setFireList es).csc.fireList = es := rfl
@[simp] theorem State.setFireList_armings (s : State) (es : List FireEntry) :
    (s.setFireList es).csc.armings = s.csc.armings := rfl
@[simp] theorem State.setSeq_outfeed (s : State) (k : Lane) (ps : List Panel) :
    (s.setSeq k ps).map.outfeed = s.map.outfeed := rfl
@[simp] theorem State.setSeq_waiting (s : State) (k : Lane) (ps : List Panel) :
    (s.setSeq k ps).map.waiting = s.map.waiting := rfl

end Sys2Proof.Machine
end

