-- ==== Sys2Proof/Laws/Evolve.lean ====
section
/-! SUPPORT. What the events of the blocks can do, said once for each shared operation: `Evolves s t` lists
what every cascade of block events keeps. It is a preorder, so a proof about a command chains the lemmas
of the operations it calls and never unfolds them. -/

namespace Sys2Proof.Machine

theorem Stroke.Continues.refl (r : Stroke) : r.Continues r := ⟨rfl, le_rfl, id⟩

theorem Stroke.Continues.trans {a b c : Stroke} (h : a.Continues b) (g : b.Continues c) :
    a.Continues c :=
  ⟨by rw [g.1, h.1], le_trans h.2.1 g.2.1, fun e => g.2.2 (h.2.2 e)⟩

theorem FireEntry.Continues.refl (e : FireEntry) : e.Continues e := rfl

theorem FireEntry.Continues.trans {x y z : FireEntry} (h : x.Continues y) (g : y.Continues z) :
    x.Continues z := by
  unfold FireEntry.Continues at *
  rw [g, h]

theorem State.ArmsNothing.refl (s : State) : s.ArmsNothing s := fun e h => ⟨e, h, .refl e⟩

theorem State.ArmsNothing.trans {s t u : State} (h : s.ArmsNothing t) (g : t.ArmsNothing u) :
    s.ArmsNothing u := fun e he => by
  obtain ⟨y, hy, hc⟩ := g e he
  obtain ⟨x, hx, hc'⟩ := h y hy
  exact ⟨x, hx, hc'.trans hc⟩

/-- What every cascade of block events keeps, from `s` to `t`: the motion unit, the loop monitor, the plan
store and the port interfaces as they were; of the tension unit all but the duty; presence, masks and
history; and the invariants that such events could break. -/
structure Evolves (s t : State) : Prop where
  mot : t.mot = s.mot
  lpm : t.lpm = s.lpm
  pls : t.pls = s.pls
  pif : t.pif = s.pif
  pending : t.pending = s.pending
  masks : t.cnd.masks = s.cnd.masks
  present : t.cnd.present = s.cnd.present
  history : t.cnd.history = s.cnd.history
  cursors : t.map.cursors = s.map.cursors
  config : t.lnc.configValid = s.lnc.configValid
  ten : ∃ d, t.ten = { s.ten with duty := d }
  /-- The line does not begin to run. -/
  running : t.lnc.line.running = true → s.lnc.line.running = true
  duty : s.DutyFollows → t.DutyFollows
  queue : t.cnd.queue.length ≤ max s.cnd.queue.length 32
  log : s.LogFits → t.LogFits
  scales : s.ScalesLegal → t.ScalesLegal
  fire : ∀ k, (t.laneEntries k).length ≤ max (s.laneEntries k).length 3
  pools : s.PoolsFit → t.PoolsFit
  serials : s.SerialsUnique → t.SerialsUnique
  /-- No panel returns to LOOP. -/
  loop : ∀ k n, (∀ q ∈ s.seq k, q.serial = n → q.state ≠ .loop) →
    ∀ q ∈ t.seq k, q.serial = n → q.state ≠ .loop
  rows : s.RowsLegal → t.RowsLegal
  /-- A knife begins a stroke only while the line runs. -/
  strokes : s.lnc.line.running = false → ∀ k r, (t.knife k).state = .stroke r →
    ∃ r', (s.knife k).state = .stroke r' ∧ r'.Continues r
  /-- Entries keep the numbers of their armings. -/
  orders : s.OrdersFit → t.OrdersFit
  distinct : s.OrdersFit → s.OrdersDistinct → t.OrdersDistinct
  /-- The fire list keeps the order of R90. -/
  ordered : s.OrdersFit → s.OrdersDistinct → s.FireListOrdered → t.FireListOrdered
  /-- While the back-off is positive nothing is armed (R109). -/
  unarmed : 0 < s.backOff → s.ArmsNothing t
  settle : s.SettleMarked → t.SettleMarked

/-- Nothing has happened. -/
theorem Evolves.refl (s : State) : Evolves s s where
  mot := rfl
  lpm := rfl
  pls := rfl
  pif := rfl
  pending := rfl
  masks := rfl
  present := rfl
  history := rfl
  cursors := rfl
  config := rfl
  ten := ⟨s.ten.duty, rfl⟩
  running := id
  duty := id
  queue := le_max_left ..
  log := id
  scales := id
  fire := fun _ => le_max_left ..
  pools := id
  serials := id
  loop := fun _ _ h => h
  rows := id
  strokes := fun _ _ r h => ⟨r, h, .refl r⟩
  orders := id
  distinct := fun _ h => h
  ordered := fun _ _ h => h
  unarmed := fun _ => .refl s
  settle := id

/-- One cascade after another. -/
theorem Evolves.trans {s t u : State} (a : Evolves s t) (b : Evolves t u) : Evolves s u where
  mot := b.mot.trans a.mot
  lpm := b.lpm.trans a.lpm
  pls := b.pls.trans a.pls
  pif := b.pif.trans a.pif
  pending := b.pending.trans a.pending
  masks := b.masks.trans a.masks
  present := b.present.trans a.present
  history := b.history.trans a.history
  cursors := b.cursors.trans a.cursors
  config := b.config.trans a.config
  ten := by
    obtain ⟨d, hd⟩ := a.ten
    obtain ⟨e, he⟩ := b.ten
    exact ⟨e, by rw [he, hd]⟩
  running := fun h => a.running (b.running h)
  duty := fun h => b.duty (a.duty h)
  queue := le_trans b.queue (max_le a.queue (le_max_right ..))
  log := fun h => b.log (a.log h)
  scales := fun h => b.scales (a.scales h)
  fire := fun k => le_trans (b.fire k) (max_le (a.fire k) (le_max_right ..))
  pools := fun h => b.pools (a.pools h)
  serials := fun h => b.serials (a.serials h)
  loop := fun k n h => b.loop k n (a.loop k n h)
  rows := fun h => b.rows (a.rows h)
  strokes := fun h k r hr => by
    have ht : t.lnc.line.running = false := by
      cases e : t.lnc.line.running with
      | false => rfl
      | true => rw [a.running e] at h; cases h
    obtain ⟨r', hr', hc⟩ := b.strokes ht k r hr
    obtain ⟨r'', hr'', hc'⟩ := a.strokes h k r' hr'
    exact ⟨r'', hr'', hc'.trans hc⟩
  orders := fun h => b.orders (a.orders h)
  distinct := fun h g => b.distinct (a.orders h) (a.distinct h g)
  ordered := fun h g o => b.ordered (a.orders h) (a.distinct h g) (a.ordered h g o)
  unarmed := fun h => (a.unarmed h).trans (b.unarmed (by unfold State.backOff; rw [a.mot]; exact h))
  settle := fun h => b.settle (a.settle h)

/-! ### Primitive updates -/

theorem evolves_setQueue (s : State) (q : List Record) (h : q.length ≤ max s.cnd.queue.length 32) :
    Evolves s (s.setQueue q) :=
  { mot := rfl, lpm := rfl, pls := rfl, pif := rfl, pending := rfl, masks := rfl, present := rfl,
    history := rfl, cursors := rfl, config := rfl, ten := ⟨s.ten.duty, rfl⟩, running := id,
    duty := id, queue := h, log := id, scales := id, fire := fun _ => le_max_left .., pools := id,
    serials := id, loop := fun _ _ h => h, rows := id, strokes := fun _ _ r h => ⟨r, h, .refl r⟩, orders := id,
      distinct := fun _ h => h,
      ordered := fun _ _ h => h, unarmed := fun _ => .refl s, settle := id }

theorem evolves_setLane (s : State) (k : Lane) (r : LaneRec)
    (h : s.ScalesLegal → LegalScale r.scale)
    (hsettle : 0 < r.settleRemaining → r.settling = true ∨
      0 < (s.lane k).settleRemaining ∧ r.settling = (s.lane k).settling) :
    Evolves s (s.setLane k r) where
  mot := rfl
  lpm := rfl
  pls := rfl
  pif := rfl
  pending := rfl
  masks := rfl
  present := rfl
  history := rfl
  cursors := rfl
  config := rfl
  ten := ⟨s.ten.duty, rfl⟩
  running := id
  duty := id
  queue := le_max_left ..
  log := id
  scales := fun hs => ⟨hs.1, fun j => by
    rw [State.lane_setLane]
    split
    · exact h hs
    · exact hs.2 j⟩
  fire := fun _ => le_max_left ..
  pools := id
  serials := id
  loop := fun _ _ h => h
  rows := id
  strokes := fun _ _ r h => ⟨r, h, .refl r⟩
  orders := id
  distinct := fun _ h => h
  ordered := fun _ _ h => h
  unarmed := fun _ => .refl s
  settle := fun hs j hj => by
    rw [State.lane_setLane] at hj ⊢
    split
    · next e =>
      subst e
      rw [if_pos rfl] at hj
      rcases hsettle hj with h | ⟨h1, h2⟩
      · exact h
      · rw [h2]; exact hs j h1
    · next e => rw [if_neg e] at hj; exact hs j hj

theorem evolves_setCsc (s : State) (c : Csc)
    (h : ∀ k, (c.fireList.filter (·.lane == k)).length ≤ max (s.laneEntries k).length 3)
    (horders : s.OrdersFit → ∀ e ∈ c.fireList, e.order < c.armings)
    (hdistinct : s.OrdersFit → s.OrdersDistinct → (c.fireList.map (·.order)).Nodup)
    (hordered : s.OrdersFit → s.OrdersDistinct → s.FireListOrdered →
      InFireOrder s.mot.highWater c.fireList)
    (hunarmed : 0 < s.backOff → ∀ e ∈ c.fireList, ∃ x ∈ s.csc.fireList, x.Continues e) :
    Evolves s (s.setCsc c) where
  mot := rfl
  lpm := rfl
  pls := rfl
  pif := rfl
  pending := rfl
  masks := rfl
  present := rfl
  history := rfl
  cursors := rfl
  config := rfl
  ten := ⟨s.ten.duty, rfl⟩
  running := id
  duty := id
  queue := le_max_left ..
  log := id
  scales := id
  fire := h
  pools := id
  serials := id
  loop := fun _ _ h => h
  rows := id
  strokes := fun _ _ r h => ⟨r, h, .refl r⟩
  orders := horders
  distinct := hdistinct
  ordered := hordered
  unarmed := hunarmed
  settle := id

theorem evolves_setKnife (s : State) (k : Lane) (n : Knife)
    (hrows : (s.knife k).RowsLegal → n.RowsLegal)
    (hstroke : s.lnc.line.running = false → ∀ r, n.state = .stroke r →
      ∃ r', (s.knife k).state = .stroke r' ∧ r'.Continues r) : Evolves s (s.setKnife k n) where
  mot := rfl
  lpm := rfl
  pls := rfl
  pif := rfl
  pending := rfl
  masks := rfl
  present := rfl
  history := rfl
  cursors := rfl
  config := rfl
  ten := ⟨s.ten.duty, rfl⟩
  running := id
  duty := id
  queue := le_max_left ..
  log := id
  scales := id
  fire := fun _ => le_max_left ..
  pools := id
  serials := id
  loop := fun _ _ h => h
  rows := fun hs j => by
    rw [State.knife_setKnife]
    split
    · exact hrows (hs k)
    · exact hs j
  strokes := fun hl j r hr => by
    rw [State.knife_setKnife] at hr
    split at hr
    · next e => subst e; exact hstroke hl r hr
    · exact ⟨r, hr, .refl r⟩
  orders := id
  distinct := fun _ h => h
  ordered := fun _ _ h => h
  unarmed := fun _ => .refl s
  settle := id

/-- A sequence changed panel by panel, each keeping its serial and none returning to LOOP. -/
theorem evolves_mapSeq (s : State) (k : Lane) (f : Panel → Panel)
    (hserial : ∀ q, (f q).serial = q.serial)
    (hloop : ∀ q, q.state ≠ .loop → (f q).state ≠ .loop) :
    Evolves s (s.setSeq k ((s.seq k).map f)) where
  mot := rfl
  lpm := rfl
  pls := rfl
  pif := rfl
  pending := rfl
  masks := rfl
  present := rfl
  history := rfl
  cursors := rfl
  config := rfl
  ten := ⟨s.ten.duty, rfl⟩
  running := id
  duty := id
  queue := le_max_left ..
  log := id
  scales := id
  fire := fun _ => le_max_left ..
  pools := fun hs => ⟨by
    have : (s.setSeq k ((s.seq k).map f)).residents.length = s.residents.length := by
      cases k <;> simp [State.residents, State.inLine, State.seq_setSeq]
    rw [this]; exact hs.1, hs.2⟩
  serials := fun hs => by
    have : (s.setSeq k ((s.seq k).map f)).residents.map (·.serial)
        = s.residents.map (·.serial) := by
      have hf : ∀ l : List Panel, (l.map f).map (·.serial) = l.map (·.serial) := fun l => by
        rw [List.map_map]; exact List.map_congr_left fun q _ => hserial q
      cases k <;> simp [State.residents, State.inLine, State.seq_setSeq, hserial]
    unfold State.SerialsUnique
    rw [this]; exact hs
  loop := fun j n hs q hq hn => by
    rw [State.seq_setSeq] at hq
    split at hq
    · next e =>
      subst e
      obtain ⟨x, hx, rfl⟩ := List.mem_map.1 hq
      exact hloop x (hs x hx (by rw [← hn, hserial]))
    · exact hs q hq hn
  rows := id
  strokes := fun _ _ r h => ⟨r, h, .refl r⟩
  orders := id
  distinct := fun _ h => h
  ordered := fun _ _ h => h
  unarmed := fun _ => .refl s
  settle := id

/-- Only the line state, the halt cause and, with them, the duty change; the line does not begin to run. -/
theorem evolves_enterLine (s : State) (c : Option LineCause) (l : LineState)
    (h : l.running = true → s.lnc.line.running = true) :
    Evolves s ((s.setLnc { s.lnc with haltCause := c }).enterLine l) where
  mot := rfl
  lpm := rfl
  pls := rfl
  pif := rfl
  pending := rfl
  masks := rfl
  present := rfl
  history := rfl
  cursors := rfl
  config := rfl
  ten := ⟨_, rfl⟩
  running := h
  duty := fun _ => rfl
  queue := le_max_left ..
  log := id
  scales := id
  fire := fun _ => le_max_left ..
  pools := id
  serials := id
  loop := fun _ _ h => h
  rows := id
  strokes := fun _ _ r h => ⟨r, h, .refl r⟩
  orders := id
  distinct := fun _ h => h
  ordered := fun _ _ h => h
  unarmed := fun _ => .refl s
  settle := id

/-- `s` with another outfeed-full flag. -/
theorem evolves_setOutfeedFull (s : State) (b : Bool) :
    Evolves s (s.setMap { s.map with outfeedFull := b }) :=
  { mot := rfl, lpm := rfl, pls := rfl, pif := rfl, pending := rfl, masks := rfl, present := rfl,
    history := rfl, cursors := rfl, config := rfl, ten := ⟨s.ten.duty, rfl⟩, running := id,
    duty := id, queue := le_max_left .., log := id, scales := id,
    fire := fun _ => le_max_left .., pools := id, serials := id, loop := fun _ _ h => h, rows := id,
    strokes := fun _ _ r h => ⟨r, h, .refl r⟩, orders := id,
      distinct := fun _ h => h,
      ordered := fun _ _ h => h, unarmed := fun _ => .refl s, settle := id }

/-- The panel leaves its sequence for the list it joins; nothing else is touched. -/
theorem evolves_move (s : State) (k : Lane) (q : Panel) (h : q ∈ s.seq k) :
    Evolves s ((s.setSeq k ((s.seq k).filter fun x => !(x.serial == q.serial))).appendDone
      q.finished) := by
  have hlen : ((s.seq k).filter fun x => !(x.serial == q.serial)).length < (s.seq k).length := by
    refine List.length_filter_lt_length_iff_exists.2 ⟨q, h, by simp⟩
  have hcount : ∀ a, (((s.seq k).filter fun x => !(x.serial == q.serial)).map (·.serial)).count a
      + [q.serial].count a ≤ ((s.seq k).map (·.serial)).count a := by
    intro a
    by_cases e : a = q.serial
    · subst e
      have h0 : (((s.seq k).filter fun x => !(x.serial == q.serial)).map (·.serial)).count q.serial
          = 0 := List.count_eq_zero.2 (by simp)
      have h1 : 0 < ((s.seq k).map (·.serial)).count q.serial :=
        List.count_pos_iff.2 (List.mem_map.2 ⟨q, h, rfl⟩)
      rw [h0, List.count_singleton_self]
      omega
    · have : [q.serial].count a = 0 := List.count_eq_zero.2 (by simp [e])
      rw [this]
      exact (List.filter_sublist.map _).count_le a
  have hloop : ∀ (t : State), t.map.seqs = s.map.seqs.set k
      ((s.seq k).filter fun x => !(x.serial == q.serial)) →
      ∀ j n, (∀ q ∈ s.seq j, q.serial = n → q.state ≠ .loop) →
        ∀ q ∈ t.seq j, q.serial = n → q.state ≠ .loop := by
    intro t ht j n hs x hx
    rw [State.seq, ht, PerLane.get_set] at hx
    split at hx
    · next e => subst e; exact hs x (List.mem_of_mem_filter hx)
    · exact hs x hx
  unfold State.appendDone
  split
  · next hroom =>
    exact
    { mot := rfl, lpm := rfl, pls := rfl, pif := rfl, pending := rfl, masks := rfl, present := rfl,
      history := rfl, cursors := rfl, config := rfl, ten := ⟨s.ten.duty, rfl⟩, running := id,
      duty := id, queue := le_max_left .., log := id, scales := id,
      fire := fun _ => le_max_left ..
      pools := fun ⟨h1, h2, h3⟩ => by
        have hr : s.map.outfeed.length < 24 := hroom
        refine ⟨?_, ?_, fun hw => ?_⟩
        · cases k <;> simp only [State.seq, PerLane.get] at hlen <;>
            simp [State.residents, State.inLine, State.seq, State.setSeq, State.setMap, PerLane.set,
              PerLane.get] at h1 ⊢ <;> omega
        · simp [State.setSeq, State.setMap]; omega
        · exact absurd (h3 hw) (by omega)
      serials := fun hs => by
        unfold State.SerialsUnique at *
        rw [List.nodup_iff_count_le_one] at *
        intro a
        have := hs a
        have hc := hcount a
        cases k <;>
          simp [State.residents, State.inLine, State.seq, State.setSeq, State.setMap, PerLane.set,
            PerLane.get, Panel.finished, List.count_cons] at this hc ⊢ <;> omega
      loop := hloop _ rfl
      rows := id, strokes := fun _ _ r h => ⟨r, h, .refl r⟩, orders := id,
      distinct := fun _ h => h,
      ordered := fun _ _ h => h, unarmed := fun _ => .refl s, settle := id }
  · next hroom =>
    exact
    { mot := rfl, lpm := rfl, pls := rfl, pif := rfl, pending := rfl, masks := rfl, present := rfl,
      history := rfl, cursors := rfl, config := rfl, ten := ⟨s.ten.duty, rfl⟩, running := id,
      duty := id, queue := le_max_left .., log := id, scales := id,
      fire := fun _ => le_max_left ..
      pools := fun ⟨h1, h2, h3⟩ => by
        have hr : ¬ s.map.outfeed.length < 24 := hroom
        refine ⟨?_, ?_, fun _ => ?_⟩
        · cases k <;> simp only [State.seq, PerLane.get] at hlen <;>
            simp [State.residents, State.inLine, State.seq, State.setSeq, State.setMap, PerLane.set,
              PerLane.get] at h1 ⊢ <;> omega
        · exact h2
        · show s.map.outfeed.length = 24
          omega
      serials := fun hs => by
        unfold State.SerialsUnique at *
        rw [List.nodup_iff_count_le_one] at *
        intro a
        have := hs a
        have hc := hcount a
        cases k <;>
          simp [State.residents, State.inLine, State.seq, State.setSeq, State.setMap, PerLane.set,
            PerLane.get, Panel.finished, List.count_cons] at this hc ⊢ <;> omega
      loop := hloop _ rfl
      rows := id, strokes := fun _ _ r h => ⟨r, h, .refl r⟩, orders := id,
      distinct := fun _ h => h,
      ordered := fun _ _ h => h, unarmed := fun _ => .refl s, settle := id }

end Sys2Proof.Machine
end

