-- ==== Sys2Proof/Laws/Reports.lean ====
section
/-! SUPPORT. The condition unit: how long the queue can grow, what the error log keeps, and that an
error log entry is an event in the sense of `Evolves`. -/

namespace Sys2Proof.Machine

/-! ### The queue -/

theorem mergeInto_length {r : Record} {q q' : List Record} (h : mergeInto r q = some q') :
    q'.length = q.length := by
  induction q generalizing q' with
  | nil => cases h
  | cons x xs ih =>
    simp only [mergeInto] at h
    split at h
    · cases h; rfl
    · cases e : mergeInto r xs with
      | none => rw [e] at h; cases h
      | some ys =>
        rw [e] at h
        cases h
        simp [ih e]

theorem dropOldest_length (n : Nat) (q : List Record) : (dropOldest n q).length ≤ q.length := by
  induction q with
  | nil => rfl
  | cons x xs ih =>
    simp only [dropOldest]
    split
    · simp
    · simpa using ih

theorem lowestRank_mem {q : List Record} {n : Nat} (h : lowestRank q = some n) :
    ∃ r ∈ q, r.cause.discardRank = n := by
  induction q generalizing n with
  | nil => cases h
  | cons x xs ih =>
    simp only [lowestRank] at h
    cases e : lowestRank xs with
    | none => rw [e] at h; cases h; exact ⟨x, by simp, rfl⟩
    | some m =>
      rw [e] at h
      cases h
      rcases le_total x.cause.discardRank m with hle | hle
      · exact ⟨x, by simp, (min_eq_left hle).symm⟩
      · obtain ⟨r, hr, rfl⟩ := ih e
        exact ⟨r, by simp [hr], (min_eq_right hle).symm⟩

/-- Removing the oldest record of a rank that is held shortens the queue by one. -/
theorem dropOldest_length_of_mem {n : Nat} {q : List Record}
    (h : ∃ r ∈ q, r.cause.discardRank = n) : (dropOldest n q).length + 1 = q.length := by
  induction q with
  | nil => obtain ⟨_, hr, _⟩ := h; cases hr
  | cons x xs ih =>
    simp only [dropOldest]
    split
    · simp
    · next hx =>
      obtain ⟨r, hr, e⟩ := h
      have := ih (by
        rcases List.mem_cons.1 hr with rfl | hr
        · exact absurd e hx
        · exact ⟨r, hr, e⟩)
      simp only [List.length_cons]
      omega

theorem overflowNewest_length (q : List Record) : (overflowNewest q).length = q.length := by
  induction q with
  | nil => rfl
  | cons x xs ih =>
    cases xs with
    | nil => rfl
    | cons y ys => simpa [overflowNewest] using ih

/-- Steps 2 to 4 of R170 fill the queue to 32 records at most, and never lengthen a full one. -/
theorem placeNew_length (r : Record) (q : List Record) :
    (placeNew r q).1.length ≤ max q.length 32 := by
  unfold placeNew
  split
  · next h => exact le_max_of_le_right (by simpa using h)
  · split
    · next n e =>
      split
      · have := dropOldest_length_of_mem (lowestRank_mem e)
        exact le_max_of_le_left (by simp; omega)
      · exact le_max_of_le_left (by rw [overflowNewest_length])
    · exact le_max_left ..

/-- R170 as a whole keeps that bound. -/
theorem placeRecord_length (r : Record) (q : List Record) :
    (placeRecord r q).1.length ≤ max q.length 32 := by
  unfold placeRecord
  split
  · next q' e =>
    split at e
    · exact le_max_of_le_left (by rw [mergeInto_length e])
    · cases e
  · exact placeNew_length r q

/-! ### The error log -/

/-- A written entry keeps the five slots, moves the pointer to 1..5 and counts up to 65,535. -/
theorem ErrorLog.write_fits (g : ErrorLog) (e : LogEntry) (h : g.slots.length = 5) :
    (g.write e).slots.length = 5 ∧ 1 ≤ (g.write e).pointer ∧ (g.write e).pointer ≤ 5 ∧
      (g.write e).count = min 65535 (g.count + 1) := by
  refine ⟨by simp [ErrorLog.write, h], Nat.le_add_left .., ?_, rfl⟩
  show g.pointer % 5 + 1 ≤ 5
  omega

theorem State.writeLog_evolves (s : State) (r : Record) (l : LineState) :
    Evolves s (s.writeLog r l) :=
  { mot := rfl, lpm := rfl, pls := rfl, pif := rfl, pending := rfl, masks := rfl, present := rfl,
    history := rfl, cursors := rfl, config := rfl, ten := ⟨s.ten.duty, rfl⟩, running := id,
    duty := id, queue := le_max_left ..,
    log := fun h => by
      obtain ⟨h1, _, h3⟩ := ErrorLog.write_fits s.cnd.log (s.logEntryOf r l) h.1
      exact ⟨h1, h3.1, by rw [show (s.writeLog r l).cnd.log.count = _ from h3.2]; exact min_le_left ..,
        h.2.2.2⟩,
    scales := id, fire := fun _ => le_max_left .., pools := id, serials := id,
    loop := fun _ _ h => h, rows := id, strokes := fun _ _ r h => ⟨r, h, .refl r⟩, orders := id,
    distinct := fun _ h => h, ordered := fun _ _ h => h, unarmed := fun _ => .refl s, settle := id }

end Sys2Proof.Machine
end

