-- ==== Sys2Proof/Laws/Cascade.lean ====
section
/-! SUPPORT. What a cascade of block events is made of, said once: `Cascade` is generated by a few primitive
updates, each shared operation is shown to be a cascade, and what every cascade keeps is then proved by one
induction over the primitives. -/

namespace Sys2Proof.Machine

/-- What a cascade may hold: begins of strokes, starts and ends of settle, and misses of expected marks. -/
structure Scope where
  strokes : Bool
  settles : Bool
  expires : Bool

/-- Everything. -/
abbrev Scope.all : Scope := ⟨true, true, true⟩

/-- What a sequence of block events within a scope is made of. No primitive moves a lane's reference or
scale, and none ends a stroke. -/
inductive Cascade (σ : Scope) : State → State → Prop where
  | refl (s : State) : Cascade σ s s
  | trans {s t u : State} : Cascade σ s t → Cascade σ t u → Cascade σ s u
  /-- The condition queue is placed into, merged into or withdrawn from. -/
  | queue (s : State) (q : List Record) (h : q.length ≤ max s.cnd.queue.length 32) :
      Cascade σ s (s.setQueue q)
  /-- An error log entry is written. -/
  | log (s : State) (r : Record) (l : LineState) : Cascade σ s (s.writeLog r l)
  /-- A lane record changes, but for its reference pair, its scale and its stray count; its settle,
  its state and its miss count change only as the scope says, or to IDLE when its sequence is empty. -/
  | lane (s : State) (k : Lane) (r : LaneRec) (h1 : r.wref = (s.lane k).wref)
      (h2 : r.lref = (s.lane k).lref) (h3 : r.scale = (s.lane k).scale)
      (h4 : r.strayCount = (s.lane k).strayCount)
      (h5 : σ.settles = true ∧ (0 < r.settleRemaining → r.settling = true) ∨
        r.settleRemaining = (s.lane k).settleRemaining ∧ r.settling = (s.lane k).settling)
      (h6 : σ.expires = true ∨ r.state = (s.lane k).state ∧ r.missCount = (s.lane k).missCount ∨
        r.state = .idle ∧ r.missCount = 0 ∧ s.seq k = []) :
      Cascade σ s (s.setLane k r)
  /-- The fire list changes; no lane comes to hold more than 3 entries, every entry was armed before the next
  arming, no two at one, and none while the back-off is positive; the list keeps the order of R90. -/
  | csc (s : State) (c : Csc)
      (h1 : ∀ k, (c.fireList.filter (·.lane == k)).length ≤ max (s.laneEntries k).length 3)
      (h2 : s.OrdersFit → ∀ e ∈ c.fireList, e.order < c.armings)
      (h3 : s.OrdersFit → s.OrdersDistinct → (c.fireList.map (·.order)).Nodup)
      (h4 : 0 < s.backOff → ∀ e ∈ c.fireList, ∃ x ∈ s.csc.fireList, x.Continues e)
      (h5 : s.OrdersFit → s.OrdersDistinct → s.FireListOrdered →
        InFireOrder s.mot.highWater c.fireList) :
      Cascade σ s (s.setCsc c)
  /-- Panels of a sequence change, but for their serials; none returns to LOOP. -/
  | panels (s : State) (k : Lane) (f : Panel → Panel) (h1 : ∀ q, (f q).serial = q.serial)
      (h2 : ∀ q, q.state ≠ .loop → (f q).state ≠ .loop) :
      Cascade σ s (s.setSeq k ((s.seq k).map f))
  /-- A finished panel leaves its sequence for the outfeed list or the waiting list. -/
  | move (s : State) (k : Lane) (q : Panel) (h : q ∈ s.seq k) :
      Cascade σ s ((s.setSeq k ((s.seq k).filter fun x => !(x.serial == q.serial))).appendDone
        q.finished)
  /-- The outfeed-full flag changes. -/
  | outfeedFull (s : State) (b : Bool) :
      Cascade σ s (s.setMap { s.map with outfeedFull := b })
  /-- The line state changes, with the halt cause and the duty; the line does not begin to run. -/
  | line (s : State) (c : Option LineCause) (l : LineState)
      (h : l.running = true → s.lnc.line.running = true) :
      Cascade σ s ((s.setLnc { s.lnc with haltCause := c }).enterLine l)
  /-- A knife begins a stroke while the line runs. -/
  | stroke (s : State) (k : Lane) (e : FireEntry) (timeoutMs : Nat)
      (h : s.lnc.line.running = true) (allowed : σ.strokes = true) :
      Cascade σ s (s.setKnife k ((s.knife k).begin timeoutMs e))

variable {σ : Scope}

/-! ### Reports -/

theorem State.report_cascade (s : State) (r : Record) : Cascade σ s (s.report r) :=
  Cascade.queue s _ (placeRecord_length r _)

theorem State.reportLaneDamage_cascade (s : State) (r : Record) : Cascade σ s (s.reportLaneDamage r) :=
  (Cascade.log s r _).trans (State.report_cascade _ r)

theorem State.reportLineDamage_cascade (s : State) (r : Record) (l : LineState) :
    Cascade σ s (s.reportLineDamage r l) := by
  refine (Cascade.log s r l).trans ?_
  unfold State.reportLineDamage
  dsimp only
  generalize s.writeLog r l = u
  split
  · split
    · next q e =>
      refine Cascade.queue u q ?_
      have := placeNew_length { r with owed := u.cnd.present, isOpen := true }
        (u.cnd.queue.map fun x => { x with isOpen := false })
      rw [e] at this
      simpa using this
    · exact Cascade.queue u _ (placeNew_length ..)
  · exact .refl u

theorem State.withdraw_cascade (s : State) (c : WarningCause) : Cascade σ s (s.withdraw c) :=
  Cascade.queue s _ (le_max_of_le_left (List.length_filter_le ..))

theorem State.countRecovery_cascade (s : State) (k : Lane) : Cascade σ s (s.countRecovery k) := by
  unfold State.countRecovery
  dsimp only
  split
  · exact (Cascade.lane s k { s.lane k with recovery := 0 } rfl rfl rfl rfl (.inr ⟨rfl, rfl⟩) (.inr (.inl ⟨rfl, rfl⟩))).trans
      (State.report_cascade _ _)
  · exact Cascade.lane s k { s.lane k with recovery := (s.lane k).recovery + 1 } rfl rfl rfl rfl (.inr ⟨rfl, rfl⟩) (.inr (.inl ⟨rfl, rfl⟩))

theorem State.reportRecovery_cascade (s : State) (k : Lane) (r : Record) :
    Cascade σ s (s.reportRecovery k r) :=
  (s.report_cascade r).trans (State.countRecovery_cascade _ k)

theorem State.reportWarning_cascade (s : State) (c : WarningCause) (d : Int) :
    Cascade σ s (s.reportWarning c d) := s.report_cascade _

theorem State.reportAccess_cascade (s : State) (c : AccessCause) (p : Port) (d : Int) :
    Cascade σ s (s.reportAccess c p d) := s.report_cascade _

/-! ### What every cascade keeps -/

/-- A cascade is an event in the sense of `Evolves`. -/
theorem Cascade.evolves {s t : State} (h : Cascade σ s t) : Evolves s t := by
  induction h with
  | refl s => exact .refl s
  | trans _ _ ha hb => exact ha.trans hb
  | queue s q h => exact evolves_setQueue s q h
  | log s r l => exact s.writeLog_evolves r l
  | lane s k r _ _ h3 _ h5 _ =>
    exact evolves_setLane s k r (fun h => by rw [h3]; exact h.2 k) fun h => by
      rcases h5 with ⟨-, g⟩ | ⟨g1, g2⟩
      · exact .inl (g h)
      · exact .inr ⟨by rw [← g1]; exact h, g2⟩
  | csc s c h1 h2 h3 h4 h5 => exact evolves_setCsc s c h1 h2 h3 h5 h4
  | panels s k f h1 h2 => exact evolves_mapSeq s k f h1 h2
  | move s k q h => exact evolves_move s k q h
  | outfeedFull s b => exact evolves_setOutfeedFull s b
  | line s c l h => exact evolves_enterLine s c l h
  | stroke s k e n h _ =>
    exact evolves_setKnife s k _ id fun hl => by rw [h] at hl; cases hl

/-- No cascade moves a lane's reference, scale or stray count. -/
theorem Cascade.lane_kept {s t : State} (h : Cascade σ s t) (k : Lane) :
    (t.lane k).wref = (s.lane k).wref ∧ (t.lane k).lref = (s.lane k).lref ∧
      (t.lane k).scale = (s.lane k).scale ∧ (t.lane k).strayCount = (s.lane k).strayCount := by
  induction h with
  | trans _ _ ha hb =>
    obtain ⟨a1, a2, a3, a4⟩ := ha
    obtain ⟨b1, b2, b3, b4⟩ := hb
    exact ⟨b1.trans a1, b2.trans a2, b3.trans a3, b4.trans a4⟩
  | lane s j r h1 h2 h3 h4 _ _ =>
    rw [State.lane_setLane]
    split
    · next e => subst e; exact ⟨h1, h2, h3, h4⟩
    · exact ⟨rfl, rfl, rfl, rfl⟩
  | move s j q _ =>
    unfold State.appendDone
    split <;> exact ⟨rfl, rfl, rfl, rfl⟩
  | _ => exact ⟨rfl, rfl, rfl, rfl⟩

/-- A fire list that only loses entries, or only changes them in their places. -/
theorem Cascade.fireList (s : State) (es : List FireEntry)
    (h1 : ∀ k, (es.filter (·.lane == k)).length ≤ max (s.laneEntries k).length 3)
    (h2 : ∀ e ∈ es, ∃ x ∈ s.csc.fireList, x.Continues e)
    (h3 : s.OrdersDistinct → (es.map (·.order)).Nodup)
    (h4 : s.OrdersDistinct → s.FireListOrdered → InFireOrder s.mot.highWater es) :
    Cascade σ s (s.setFireList es) :=
  .csc s { s.csc with fireList := es } h1 (fun ho e he => by
    obtain ⟨x, hx, h⟩ := h2 e he
    rw [h]; exact ho x hx) (fun _ => h3) (fun _ => h2) fun _ => h4

/-- A cascade without strokes leaves every knife as it was. -/
theorem Cascade.knives_kept {s t : State} (h : Cascade σ s t) (hσ : σ.strokes = false) :
    t.knc = s.knc := by
  induction h with
  | trans _ _ ha hb => exact hb.trans ha
  | move s j q _ =>
    unfold State.appendDone
    split <;> rfl
  | stroke _ _ _ _ _ h => rw [hσ] at h; cases h
  | _ => rfl

/-- A cascade without settle leaves settle as it was. -/
theorem Cascade.settle_kept {s t : State} (h : Cascade σ s t) (hσ : σ.settles = false) (k : Lane) :
    (t.lane k).settleRemaining = (s.lane k).settleRemaining ∧
      (t.lane k).settling = (s.lane k).settling := by
  induction h with
  | trans _ _ ha hb => exact ⟨hb.1.trans ha.1, hb.2.trans ha.2⟩
  | lane s j r _ _ _ _ h5 _ =>
    rw [State.lane_setLane]
    split
    · next e =>
      subst e
      rcases h5 with h | h
      · rw [hσ] at h; cases h.1
      · exact h
    · exact ⟨rfl, rfl⟩
  | move s j q _ =>
    unfold State.appendDone
    split <;> exact ⟨rfl, rfl⟩
  | _ => exact ⟨rfl, rfl⟩

/-- A sequence once empty stays empty in a cascade. -/
theorem Cascade.empty_kept {s t : State} (h : Cascade σ s t) (k : Lane) (he : s.seq k = []) :
    t.seq k = [] := by
  induction h with
  | trans _ _ ha hb => exact hb (ha he)
  | panels s j f _ _ =>
    rw [State.seq_setSeq]
    split
    · next e => subst e; rw [he]; rfl
    · exact he
  | move s j q _ =>
    have : ∀ u : State, u.map.seqs = s.map.seqs.set j
        ((s.seq j).filter fun x => !(x.serial == q.serial)) → u.seq k = [] := by
      intro u hu
      rw [State.seq, hu, PerLane.get_set]
      split
      · next e => subst e; rw [he]; rfl
      · exact he
    unfold State.appendDone
    split <;> exact this _ rfl
  | _ => exact he

/-- In a cascade without expiries a lane keeps its state and miss count, or returns to IDLE with its
sequence emptied (R66). -/
theorem Cascade.state_kept {s t : State} (h : Cascade σ s t) (hσ : σ.expires = false) (k : Lane) :
    (t.lane k).state = (s.lane k).state ∧ (t.lane k).missCount = (s.lane k).missCount ∨
      (t.lane k).state = .idle ∧ (t.lane k).missCount = 0 ∧ t.seq k = [] := by
  induction h with
  | trans _ hb iha ihb =>
    rcases ihb with ⟨e, f⟩ | h
    · rcases iha with ⟨e', f'⟩ | ⟨h1, h2, h3⟩
      · exact .inl ⟨e.trans e', f.trans f'⟩
      · exact .inr ⟨e.trans h1, f.trans h2, hb.empty_kept k h3⟩
    · exact .inr h
  | lane s j r _ _ _ _ _ h6 =>
    rw [State.lane_setLane]
    split
    · next e =>
      subst e
      rcases h6 with h | h | h
      · rw [hσ] at h; cases h
      · exact .inl h
      · exact .inr h
    · exact .inl ⟨rfl, rfl⟩
  | move s j q _ =>
    unfold State.appendDone
    split <;> exact .inl ⟨rfl, rfl⟩
  | _ => exact .inl ⟨rfl, rfl⟩

end Sys2Proof.Machine
end

