-- ==== Sys2Proof/Laws/Ops.lean ====
section
/-! SUPPORT. The shared operations of the panel map, the cut scheduler and the registration unit as
cascades: one lemma for each operation. -/

namespace Sys2Proof.Machine

variable {σ : Scope}

/-! ### Line state, outfeed list and pool -/

theorem State.enterLine_cascade (s : State) (l : LineState)
    (h : l.running = true → s.lnc.line.running = true) : Cascade σ s (s.enterLine l) :=
  Cascade.line s s.lnc.haltCause l h

theorem State.checkOutfeedFull_cascade (s : State) : Cascade σ s s.checkOutfeedFull := by
  unfold State.checkOutfeedFull
  split
  · split
    · exact .refl s
    · exact (Cascade.outfeedFull s true).trans (State.reportWarning_cascade _ _ _)
  · split
    · exact (Cascade.outfeedFull s false).trans (State.withdraw_cascade _ _)
    · exact .refl s

theorem State.idleLane_cascade (s : State) (k : Lane) (h : s.seq k = []) :
    Cascade σ s (s.idleLane k) :=
  .lane s k _ rfl rfl rfl rfl (.inr ⟨rfl, rfl⟩) (.inr (.inr ⟨rfl, rfl, h⟩))

theorem State.completeDrain_cascade (s : State) : Cascade σ s s.completeDrain := by
  unfold State.completeDrain
  split
  · exact s.enterLine_cascade .ready (fun h => by cases h)
  · exact .refl s

/-! ### Panels and the fire list -/

theorem State.updatePanel_cascade (s : State) (k : Lane) (n : Half) (f : Panel → Panel)
    (hserial : ∀ q, (f q).serial = q.serial) (hloop : ∀ q, q.state ≠ .loop → (f q).state ≠ .loop) :
    Cascade σ s (s.updatePanel k n f) :=
  Cascade.panels s k _ (fun q => by split; exact hserial q; rfl)
    (fun q h => by split; exact hloop q h; exact h)

theorem State.setAction_cascade (s : State) (k : Lane) (n : Half) (i : Nat) (st : ActionStatus) :
    Cascade σ s (s.setAction k n i st) :=
  s.updatePanel_cascade k n _ (fun _ => rfl) (fun _ h => h)

theorem State.setMark_cascade (s : State) (k : Lane) (n : Half) (i : Nat) (st : MarkStatus) :
    Cascade σ s (s.setMark k n i st) :=
  s.updatePanel_cascade k n _ (fun _ => rfl) (fun _ h => h)

/-- A fire list from which entries leave. -/
theorem Cascade.departures (s : State) (p : FireEntry → Bool) :
    Cascade σ s (s.setFireList (s.csc.fireList.filter p)) :=
  .fireList s _ (fun j => le_max_of_le_left (by
      rw [List.filter_filter, State.laneEntries]
      exact (List.monotone_filter_right _ (fun e h => by simp at h; simp [h])).length_le))
    (fun e he => ⟨e, List.mem_of_mem_filter he, rfl⟩)
    (fun h => (List.filter_sublist.map _).nodup h) fun _ h => h.filter p

theorem State.removeEntry_cascade (s : State) (k : Lane) (n : Half) (i : Nat) :
    Cascade σ s (s.removeEntry k n i) := .departures s _

theorem State.updateEntry_cascade (s : State) (k : Lane) (n : Half) (i : Nat)
    (f : FireEntry → FireEntry) (h : ∀ e : FireEntry, e.Continues (f e)) (hf : ∀ e, (f e).f = e.f) :
    Cascade σ s (s.updateEntry k n i f) :=
  .fireList s _ (fun j => le_max_of_le_left (by
      rw [List.filter_map, List.length_map, State.laneEntries]
      refine le_of_eq (congrArg List.length (List.filter_congr fun e _ => ?_))
      simp only [Function.comp]
      split
      · rw [h e]
      · rfl))
    (fun e he => by
      obtain ⟨x, hx, rfl⟩ := List.mem_map.1 he
      refine ⟨x, hx, ?_⟩
      split
      · exact h x
      · rfl)
    (fun hd => by
      have : ∀ e : FireEntry, (if e.serves k n i then f e else e).order = e.order := fun e => by
        split
        · rw [h e]
        · rfl
      rw [List.map_map, show (fun e : FireEntry => e.order) ∘ _ = _ from funext this]
      exact hd)
    fun _ ho => by
      have hg : ∀ e : FireEntry, (if e.serves k n i then f e else e).f = e.f ∧
          (if e.serves k n i then f e else e).order = e.order := fun e => by
        split
        · exact ⟨hf e, by rw [h e]⟩
        · exact ⟨rfl, rfl⟩
      refine List.pairwise_map.2 (ho.imp fun {a b} hab => ?_)
      rw [(hg a).1, (hg b).1, (hg a).2, (hg b).2]
      exact hab

/-- An entry put in its place adds one entry to its lane and none to another. -/
theorem insertEntry_filter (hw : Word) (e : FireEntry) (es : List FireEntry) (k : Lane) :
    ((insertEntry hw e es).filter (·.lane == k)).length =
      (es.filter (·.lane == k)).length + if e.lane = k then 1 else 0 := by
  induction es with
  | nil => by_cases h : e.lane = k <;> simp [insertEntry, h]
  | cons x xs ih =>
    simp only [insertEntry]
    split
    · by_cases h : e.lane = k <;> simp [h]
    · simp only [List.filter_cons]
      split
      · simp [ih]; omega
      · exact ih

/-- Where an entry is put: behind entries that it does not stand before, and before the first that it
does (R90). -/
theorem insertEntry_split (hw : Word) (e : FireEntry) (es : List FireEntry) :
    ∃ pre post, es = pre ++ post ∧ insertEntry hw e es = pre ++ e :: post ∧
      (∀ x ∈ pre, e.before hw x = false) ∧ ∀ x ∈ post.head?, e.before hw x = true := by
  induction es with
  | nil => exact ⟨[], [], rfl, rfl, by simp, by simp⟩
  | cons y ys ih =>
    simp only [insertEntry]
    split
    · next h => exact ⟨[], y :: ys, rfl, rfl, by simp, by simpa using h⟩
    · next h =>
      obtain ⟨pre, post, h1, h2, h3, h4⟩ := ih
      refine ⟨y :: pre, post, by rw [h1]; rfl, by rw [h2]; rfl, ?_, h4⟩
      intro x hx
      rcases List.mem_cons.1 hx with rfl | hx
      · simpa using h
      · exact h3 x hx

/-- An entry with a number of arming of its own, put in its place, keeps the order (R90). -/
theorem insertEntry_ordered {hw : Word} {e : FireEntry} {es : List FireEntry}
    (hn : ∀ x ∈ es, x.order ≠ e.order) (h : InFireOrder hw es) : InFireOrder hw (insertEntry hw e es) := by
  unfold InFireOrder at *
  induction es with
  | nil => simp [insertEntry]
  | cons y ys ih =>
    obtain ⟨h1, h2⟩ := List.pairwise_cons.1 h
    have hy := hn y (List.mem_cons_self ..)
    simp only [insertEntry, FireEntry.before, decide_eq_true_eq]
    split
    · next hb =>
      refine List.pairwise_cons.2 ⟨fun x hx => ?_, h⟩
      rcases List.mem_cons.1 hx with rfl | hx
      · exact hb
      · have := h1 x hx; omega
    · next hb =>
      refine List.pairwise_cons.2 ⟨fun x hx => ?_,
        ih (fun x hx => hn x (List.mem_cons_of_mem _ hx)) h2⟩
      have : x = e ∨ x ∈ ys := by
        obtain ⟨pre, post, g1, g2, -, -⟩ := insertEntry_split hw e ys
        rw [g2] at hx
        rw [g1]
        simp only [List.mem_append, List.mem_cons] at hx ⊢
        tauto
      rcases this with rfl | hx
      · omega
      · exact h1 x hx

/-- The entries after one is put in its place are those before and that one. -/
theorem mem_insertEntry {hw : Word} {e x : FireEntry} {es : List FireEntry} :
    x ∈ insertEntry hw e es ↔ x = e ∨ x ∈ es := by
  induction es with
  | nil => simp [insertEntry]
  | cons y ys ih =>
    simp only [insertEntry]
    split
    · simp
    · simp only [List.mem_cons, ih]; tauto

/-- An entry put in its place is one entry more. -/
theorem insertEntry_perm (hw : Word) (e : FireEntry) (es : List FireEntry) :
    (insertEntry hw e es).Perm (e :: es) := by
  obtain ⟨pre, post, h1, h2, -, -⟩ := insertEntry_split hw e es
  rw [h2, h1]
  exact List.perm_middle

/-- An action is armed at high-water only (R109). -/
theorem State.arm_cascade (s : State) (k : Lane) (a : ActionRef) (f : Word) (lead : Nat) (c : Bool)
    (h : (s.laneEntries k).length < 3) (hb : ¬0 < s.backOff) : Cascade σ s (s.arm k a f lead c) := by
  refine (Cascade.csc s _ (fun j => ?_) (fun ho x hx => ?_) (fun ho hd => ?_)
    (fun h => absurd h hb) fun ho _ hl => insertEntry_ordered
      (fun x hx => Nat.ne_of_lt (ho x hx)) hl).trans (State.setAction_cascade _ _ _ _ _)
  · rw [insertEntry_filter]
    unfold State.laneEntries at *
    by_cases e : k = j
    · subst e; simp; omega
    · simp [e]
  · rcases mem_insertEntry.1 hx with rfl | hx
    · exact Nat.lt_succ_self _
    · exact Nat.lt_succ_of_lt (ho x hx)
  · refine (((insertEntry_perm ..).map _).nodup_iff).2 (List.nodup_cons.2 ⟨fun hm => ?_, hd⟩)
    obtain ⟨x, hx, hx'⟩ := List.mem_map.1 hm
    exact absurd (ho x hx) (by rw [hx']; exact Nat.lt_irrefl _)

/-! ### The expected mark -/

/-- All that the taking of an expected mark does: the leading marks whose window expiry lies at or behind the
high-water become MISSED, and the first behind them, if any, is expected, with its prediction and expiry (R68, R69). -/
theorem expectFrom_eq (k : Lane) (ms : List MarkRef) (s : State) :
    let due (m : MarkRef) : Bool := s.reached (s.expiryAt k (s.predictAt k m.w))
    expectFrom k ms s =
      ((ms.takeWhile due).foldl (fun t m => t.setMark k m.serial m.index .missed) s).setLane k
        { s.lane k with expected := (ms.dropWhile due).head?.map fun m =>
            { serial := m.serial, index := m.index, w := m.w, pred := s.predictAt k m.w,
              expiry := s.expiryAt k (s.predictAt k m.w) } } := by
  induction ms generalizing s with
  | nil => rfl
  | cons m ms ih =>
    simp only [expectFrom, List.takeWhile, List.dropWhile]
    cases s.reached (s.expiryAt k (s.predictAt k m.w)) with
    | true => exact ih (s.setMark k m.serial m.index .missed)
    | false => rfl

/-! ### DONE -/

theorem State.takeExpected_cascade (s : State) (k : Lane) : Cascade σ s (s.takeExpected k) := by
  unfold State.takeExpected
  split
  · next he =>
    clear he
    generalize s.pendingMarks k = ms
    induction ms generalizing s with
    | nil => exact Cascade.lane s k { s.lane k with expected := none } rfl rfl rfl rfl (.inr ⟨rfl, rfl⟩) (.inr (.inl ⟨rfl, rfl⟩))
    | cons m ms ih =>
      simp only [expectFrom]
      split
      · exact (s.setMark_cascade ..).trans (ih _)
      · exact Cascade.lane s k { s.lane k with expected := some _ } rfl rfl rfl rfl (.inr ⟨rfl, rfl⟩) (.inr (.inl ⟨rfl, rfl⟩))
  · exact Cascade.lane s k { s.lane k with expected := none } rfl rfl rfl rfl (.inr ⟨rfl, rfl⟩) (.inr (.inl ⟨rfl, rfl⟩))

theorem State.reviewExpected_cascade (s : State) (k : Lane) : Cascade σ s (s.reviewExpected k) := by
  unfold State.reviewExpected
  split
  · split
    · exact .refl s
    · exact s.takeExpected_cascade k
  · exact s.takeExpected_cascade k

theorem State.doneEvent_cascade (s : State) (k : Lane) (q : Panel) (h : q ∈ s.seq k) :
    Cascade σ s (s.doneEvent k q) := by
  unfold State.doneEvent
  refine ((Cascade.move s k q h).trans (State.checkOutfeedFull_cascade _)).trans (Cascade.trans ?_ (State.completeDrain_cascade _))
  split
  · next h => exact State.idleLane_cascade _ k (List.isEmpty_iff.1 h)
  · exact State.reviewExpected_cascade _ k

theorem State.checkDone_cascade (s : State) (k : Lane) (n : Half) : Cascade σ s (s.checkDone k n) := by
  unfold State.checkDone
  split
  · next q hq =>
    split
    · exact s.doneEvent_cascade k q (List.mem_of_find?_eq_some hq)
    · exact .refl s
  · exact .refl s

theorem checkDoneAll_cascade (k : Lane) (ns : List Half) (s : State) :
    Cascade σ s (checkDoneAll k ns s) := by
  induction ns generalizing s with
  | nil => exact .refl s
  | cons n ns ih => exact (s.checkDone_cascade k n).trans (ih _)

/-! ### Voids and the lane scan -/

theorem State.markVoid_cascade (s : State) (k : Lane) (n : Half) (c : VoidCause) (i : Option Nat)
    (w : Word) (a : Bool) : Cascade σ s (s.markVoid k n c i w a) := by
  unfold State.markVoid
  split
  · exact .refl s
  · split
    · exact .refl s
    · exact (s.updatePanel_cascade k n (fun x => { x with voidCause := some c }) (fun _ => rfl)
        (fun _ h => h)).trans (State.report_cascade _ _)

theorem State.missPending_cascade (s : State) (k : Lane) (a : ActionRef) (c : MissCause) :
    Cascade σ s (s.missPending k a c) :=
  ((s.setAction_cascade ..).trans (State.markVoid_cascade ..)).trans (State.checkDone_cascade ..)

theorem scanArming_cascade (k : Lane) (as : List ActionRef) (s : State) :
    Cascade σ s (scanArming k as s) := by
  induction as generalizing s with
  | nil => exact .refl s
  | cons a as ih =>
    simp only [scanArming]
    split
    · exact (s.missPending_cascade ..).trans (ih _)
    · split
      · exact .refl s
      · next hb =>
        split
        · exact .refl s
        · next h =>
          have h : (s.laneEntries k).length < 3 := by simpa using h
          split
          · exact (s.arm_cascade _ _ _ _ _ h hb).trans (ih _)
          · split
            · exact (s.arm_cascade _ _ _ _ _ h hb).trans (ih _)
            · exact .refl s

theorem scanMissing_cascade (k : Lane) (c : MissCause) (as : List ActionRef) (s : State) :
    Cascade σ s (scanMissing k c as s) := by
  induction as generalizing s with
  | nil => exact .refl s
  | cons a as ih =>
    simp only [scanMissing]
    split
    · exact (s.missPending_cascade ..).trans (ih _)
    · exact .refl s

theorem State.laneScan_cascade (s : State) (k : Lane) : Cascade σ s (s.laneScan k) := by
  unfold State.laneScan
  split
  · exact scanArming_cascade ..
  · exact scanArming_cascade ..
  · exact scanMissing_cascade ..
  · exact scanMissing_cascade ..
  · exact .refl s

theorem State.dropPerfs_cascade (s : State) (k : Lane) (n : Half) : Cascade σ s (s.dropPerfs k n) := by
  have h1 := s.updatePanel_cascade (σ := σ) k n Panel.perfsDropped (fun _ => rfl) (fun _ h => h)
  have h2 := fun t : State => Cascade.departures (σ := σ) t fun e => !e.droppable k n
  have h3 := (h1.trans (h2 _)).trans (State.checkDone_cascade _ k n)
  unfold State.dropPerfs
  dsimp only
  split
  · exact h3.trans (State.laneScan_cascade _ k)
  · exact h3

theorem State.voidPanel_cascade (s : State) (k : Lane) (n : Half) (c : VoidCause) (i : Option Nat)
    (w : Word) (a : Bool) : Cascade σ s (s.voidPanel k n c i w a) := by
  unfold State.voidPanel
  split
  · exact .refl s
  · split
    · exact .refl s
    · dsimp only
      split
      · exact (s.markVoid_cascade ..).trans (State.dropPerfs_cascade ..)
      · exact s.markVoid_cascade ..

/-! ### Misses, strokes and fire events -/

theorem State.missAction_cascade (s : State) (k : Lane) (n : Half) (i : Nat) (c : MissCause) :
    Cascade σ s (s.missAction k n i c) :=
  ((((s.setAction_cascade ..).trans (State.removeEntry_cascade ..)).trans
    (State.voidPanel_cascade ..)).trans (State.checkDone_cascade ..)).trans
    (State.laneScan_cascade ..)

/-- A stroke begins only while the line runs. -/
theorem State.strike_cascade (s : State) (k : Lane) (e : FireEntry) (late : Bool)
    (h : s.lnc.line.running = true) (hσ : σ.strokes = true) : Cascade σ s (s.strike k e late) := by
  have h1 : Cascade σ s (s.setKnife k ((s.knife k).begin s.params.g4.strokeTimeout e)) :=
    .stroke s k e _ h hσ
  have h2 := fun st => ((h1.trans (State.setAction_cascade _ k e.serial e.index st)).trans (State.removeEntry_cascade _ k e.serial e.index)).trans
    (State.updatePanel_cascade _ k e.serial Panel.cut (fun _ => rfl)
      (fun q hq => by simp only [Panel.cut]; split <;> simp_all))
  have h3 := fun {t : State} (ht : Cascade σ s t) =>
    (ht.trans (t.checkDone_cascade k e.serial)).trans (State.laneScan_cascade _ k)
  unfold State.strike
  cases late with
  | true => exact h3 ((h2 .late).trans (State.reportRecovery_cascade ..))
  | false => exact h3 (h2 .fired)

theorem State.await_cascade (s : State) (k : Lane) (e : FireEntry) : Cascade σ s (s.await k e) := by
  unfold State.await
  split
  · exact s.missAction_cascade ..
  · split
    · exact s.missAction_cascade ..
    · exact s.updateEntry_cascade _ _ _ _ (fun _ => rfl) (fun _ => rfl)

theorem State.fire_cascade (s : State) (k : Lane) (e : FireEntry) (hσ : σ.strokes = true) :
    Cascade σ s (s.fire k e) := by
  unfold State.fire
  split
  · exact s.missAction_cascade ..
  · exact s.missAction_cascade ..
  · exact s.missAction_cascade ..
  all_goals
    next hl =>
    split
    · exact s.missAction_cascade ..
    · exact s.missAction_cascade ..
    · exact s.await_cascade k e
    · exact s.strike_cascade k e false (by rw [hl]; rfl) hσ

theorem State.settleWaiter_cascade (s : State) (k : Lane) (hσ : σ.strokes = true) :
    Cascade σ s (s.settleWaiter k) := by
  unfold State.settleWaiter
  split
  · exact .refl s
  · split
    · exact s.missAction_cascade ..
    · exact s.missAction_cascade ..
    · exact s.missAction_cascade ..
    all_goals
      next hl =>
      split
      · exact s.strike_cascade _ _ true (by rw [hl]; rfl) hσ
      · exact s.missAction_cascade ..
      · exact s.missAction_cascade ..
      · exact s.missAction_cascade ..

theorem State.commitEntry_cascade (s : State) (k : Lane) (n : Half) (i : Nat) (f : Word) :
    Cascade σ s (s.commitEntry k n i f) :=
  (s.updateEntry_cascade k n i (fun x => { x with committed := true }) (fun _ => rfl)
    (fun _ => rfl)).trans
    (State.setAction_cascade ..)

/-! ### The hand-on of a reference -/

theorem State.recomputePanels_cascade (s : State) (k : Lane) : Cascade σ s (s.recomputePanels k) :=
  (Cascade.panels s k _ (fun q => by simp only [State.enterWeb]; split <;> rfl)
    (fun q h => by
      unfold State.enterWeb
      by_cases e : (s.repredict k q).state = .loop ∧ s.reached (s.repredict k q).leadReading
      · rw [if_pos e]; exact absurd e.1 h
      · rw [if_neg e]; exact h)).trans
    (checkDoneAll_cascade ..)

/-- An ARMED entry leaves its place and takes the place of its new fire position. -/
theorem cascade_moveEntry (s : State) (k : Lane) (n : Half) (i : Nat) (x : FireEntry) (f : Word)
    (h : s.findEntry k n i = some x) :
    Cascade σ s (((s.removeEntry k x.serial x.index)).setFireList (insertEntry s.mot.highWater
      { x with f := f } (s.removeEntry k x.serial x.index).csc.fireList)) := by
  have hx : x.serves k n i :=
    List.find?_some (p := fun e : FireEntry => e.serves k n i) (l := s.csc.fireList) h
  have hk : x.lane = k := by
    simp only [FireEntry.serves, Bool.and_eq_true, beq_iff_eq] at hx; exact hx.1.1
  have hm : x ∈ s.csc.fireList := List.mem_of_find?_eq_some h
  have hn : s.OrdersDistinct → ∀ y ∈ (s.removeEntry k x.serial x.index).csc.fireList,
      y.order ≠ x.order := fun hd y hy e => by
    have hn : y ≠ x := by
      rintro rfl
      exact absurd (List.mem_filter.1 hy).2 (by simp [FireEntry.serves, hk])
    exact hn (List.inj_on_of_nodup_map hd (List.mem_of_mem_filter hy) hm e)
  refine Cascade.fireList s _ (fun j => le_max_of_le_left ?_) (fun e he => by
    rcases mem_insertEntry.1 he with rfl | he
    · exact ⟨x, hm, rfl⟩
    · exact ⟨e, List.mem_of_mem_filter he, rfl⟩) (fun hd => by
    refine (((insertEntry_perm ..).map _).nodup_iff).2 (List.nodup_cons.2
      ⟨fun hy => ?_, (List.filter_sublist.map _).nodup hd⟩)
    obtain ⟨y, hy, e⟩ := List.mem_map.1 hy
    exact hn hd y hy e) fun hd ho =>
      insertEntry_ordered (e := { x with f := f }) (hn hd) (List.Pairwise.filter _ ho)
  rw [insertEntry_filter]
  show ((s.csc.fireList.filter fun e => !e.serves k x.serial x.index).filter (·.lane == j)).length
      + _ ≤ (s.csc.fireList.filter (·.lane == j)).length
  rw [List.filter_filter]
  have hsub : ((s.csc.fireList.filter (·.lane == j)).filter
      fun e => !e.serves k x.serial x.index).length
      + (if x.lane = j then 1 else 0) ≤ (s.csc.fireList.filter (·.lane == j)).length := by
    split
    · next e =>
      refine Nat.succ_le_of_lt (List.length_filter_lt_length_iff_exists.2 ⟨x, ?_, ?_⟩)
      · exact List.mem_filter.2 ⟨hm, by simp [e]⟩
      · simp [FireEntry.serves, hk]
    · exact List.length_filter_le ..
  rw [List.filter_filter] at hsub
  have hc : (s.csc.fireList.filter fun e => e.lane == j && !e.serves k x.serial x.index)
      = s.csc.fireList.filter fun e => !e.serves k x.serial x.index && e.lane == j :=
    List.filter_congr fun e _ => Bool.and_comm ..
  rw [hc]
  exact hsub

/-- A recomputed entry is one that the list holds (R99). -/
theorem State.recomputeEntry_cascade (s : State) (k : Lane) (n : Half) (i : Nat) (e : FireEntry)
    (h : s.findEntry k n i = some e) (hσ : σ.strokes = true) :
    Cascade σ s (s.recomputeEntry k e) := by
  unfold State.recomputeEntry
  split
  · next w _ =>
    dsimp only
    have h1 := (cascade_moveEntry (σ := σ) s k n i e (s.firePosition k w e.heldLead) h).trans
      (State.setAction_cascade _ k e.serial e.index (.armed (s.firePosition k w e.heldLead)))
    split
    · have h2 := h1.trans (State.commitEntry_cascade _ k e.serial e.index
        (s.firePosition k w e.heldLead))
      split
      · exact h2.trans (State.fire_cascade _ _ _ hσ)
      · exact h2
    · exact h1
  · exact .refl s

theorem State.assessEntry_cascade (s : State) (k : Lane) (e : FireEntry) :
    Cascade σ s (s.assessEntry k e) := by
  have h : ∀ {t : State}, Cascade σ s t → ∀ b : Prop, [Decidable b] → Cascade σ s
      (if b then t.voidPanel k e.serial .deviation (some e.index) t.mot.l false else t) := by
    intro t ht b _
    split
    · exact ht.trans (t.voidPanel_cascade ..)
    · exact ht
  unfold State.assessEntry
  split
  · refine h ?_ _
    split
    · exact s.reportRecovery_cascade ..
    · exact .refl s
  · exact .refl s

theorem State.reviseEntry_cascade (s : State) (k : Lane) (n : Half) (i : Nat)
    (hσ : σ.strokes = true) : Cascade σ s (s.reviseEntry k n i) := by
  unfold State.reviseEntry
  split
  · exact .refl s
  · next e he =>
    split
    · exact s.assessEntry_cascade k e
    · exact s.recomputeEntry_cascade k n i e he hσ

theorem reviseAll_cascade (k : Lane) (es : List FireEntry) (s : State) (hσ : σ.strokes = true) :
    Cascade σ s (reviseAll k es s) := by
  induction es generalizing s with
  | nil => exact .refl s
  | cons e es ih => exact (s.reviseEntry_cascade k e.serial e.index hσ).trans (ih _)

theorem State.handOn_cascade (s : State) (k : Lane) (hσ : σ.strokes = true) :
    Cascade σ s (s.handOn k) :=
  (((s.recomputePanels_cascade k).trans (reviseAll_cascade _ _ _ hσ)).trans
    (State.takeExpected_cascade ..)).trans (State.laneScan_cascade ..)

/-! ### Window expiry and settle -/

theorem State.loadCopy_cascade (s : State) (k : Lane) : Cascade σ s (s.loadCopy k) :=
  Cascade.lane s k { s.lane k with g1 := s.params.g1 } rfl rfl rfl rfl (.inr ⟨rfl, rfl⟩) (.inr (.inl ⟨rfl, rfl⟩))

theorem missLost_cascade (k : Lane) (es : List FireEntry) (s : State) :
    Cascade σ s (missLost k es s) := by
  induction es generalizing s with
  | nil => exact .refl s
  | cons e es ih => exact (s.missAction_cascade ..).trans (ih _)

theorem State.loseLane_cascade (s : State) (k : Lane) (x : Expected) (hσ : σ.expires = true) :
    Cascade σ s (s.loseLane k x) :=
  (((Cascade.lane s k { s.lane k with state := .lost, expected := none } rfl rfl rfl rfl
    (.inr ⟨rfl, rfl⟩) (.inl hσ)).trans
    (State.reportLaneDamage_cascade ..)).trans (missLost_cascade ..)).trans
    (State.laneScan_cascade ..)

theorem State.expire_cascade (s : State) (k : Lane) (hσ : σ.expires = true) :
    Cascade σ s (s.expire k) := by
  unfold State.expire
  split
  · exact .refl s
  · next x _ =>
    dsimp only
    have h1 := (s.loadCopy_cascade (σ := σ) k).trans (State.setMark_cascade _ k x.serial x.index .missed)
    generalize (s.loadCopy k).setMark k x.serial x.index .missed = t at *
    split
    · exact h1.trans ((Cascade.lane t k _ (by rfl) (by rfl) (by rfl) (by rfl)
        (.inr (by exact ⟨rfl, rfl⟩)) (.inl hσ)).trans (State.loseLane_cascade _ k x hσ))
    · split
      · exact h1.trans (((Cascade.lane t k _ (by rfl) (by rfl) (by rfl) (by rfl)
          (.inr (by exact ⟨rfl, rfl⟩)) (.inl hσ)).trans (State.takeExpected_cascade _ k)).trans
          (State.laneScan_cascade _ k))
      all_goals
        exact h1.trans ((Cascade.lane t k _ (by rfl) (by rfl) (by rfl) (by rfl)
          (.inr (by exact ⟨rfl, rfl⟩)) (.inl hσ)).trans (State.takeExpected_cascade _ k))

theorem State.moveExpiry_cascade (s : State) (k : Lane) (hσ : σ.expires = true) :
    Cascade σ s (s.moveExpiry k) := by
  unfold State.moveExpiry
  split
  · exact .refl s
  · next x _ =>
    dsimp only
    split
    · exact .refl s
    · have h1 := Cascade.lane (σ := σ) s k
        { s.lane k with expected := some { x with expiry := s.expiryAt k x.pred } } rfl rfl rfl rfl (.inr ⟨rfl, rfl⟩) (.inr (.inl ⟨rfl, rfl⟩))
      split
      · exact h1.trans (State.expire_cascade _ k hσ)
      · exact h1

theorem State.startSettle_cascade (s : State) (k : Lane) (h1 : σ.settles = true)
    (h2 : σ.expires = true) : Cascade σ s (s.startSettle k) :=
  (Cascade.lane s k _ (by rfl) (by rfl) (by rfl) (by rfl) (.inl ⟨h1, by simp⟩) (.inl h2)).trans
    (State.moveExpiry_cascade _ k h2)

theorem State.tensionChange_cascade (s : State) (h1 : σ.settles = true) (h2 : σ.expires = true) :
    Cascade σ s s.tensionChange :=
  (((s.startSettle_cascade .l0 h1 h2).trans (State.startSettle_cascade _ .l1 h1 h2)).trans
    (State.startSettle_cascade _ .l2 h1 h2)).trans (State.startSettle_cascade _ .l3 h1 h2)

/-! ### Line-damage causes -/

theorem reportHalts_cascade (l : LineState) (cs : List LineCause) (s : State) :
    Cascade σ s (reportHalts l cs s) := by
  induction cs generalizing s with
  | nil => exact .refl s
  | cons c cs ih => exact (s.reportLineDamage_cascade ..).trans (ih _)

theorem State.halt_cascade (s : State) (cs : List LineCause) : Cascade σ s (s.halt cs) := by
  cases cs with
  | nil => exact .refl s
  | cons c cs =>
    exact ((Cascade.line s (some c) .halted (fun h => by cases h)).trans
      (State.reportLineDamage_cascade ..)).trans (reportHalts_cascade ..)

theorem State.furtherCause_cascade (s : State) (c : LineCause) : Cascade σ s (s.furtherCause c) := by
  unfold State.furtherCause
  split
  · split
    · exact .refl s
    · split
      · exact Cascade.queue s _ (le_max_of_le_left (by simp))
      · exact s.reportLineDamage_cascade ..
  · exact s.reportLineDamage_cascade ..

theorem State.causeHolds_cascade (s : State) (c : LineCause) : Cascade σ s (s.causeHolds c) := by
  unfold State.causeHolds
  split
  · exact s.halt_cascade _
  · exact s.halt_cascade _
  · split
    · exact .refl s
    · exact s.furtherCause_cascade c
  · exact .refl s
  · exact .refl s

end Sys2Proof.Machine
end

