-- ==== Sys2Proof/Laws/Events.lean ====
section
/-! SUPPORT. The events of the knives, of the lanes and of the tension unit: cascades where no stroke ends and
no reference moves, events in the sense of `Evolves` otherwise. One lemma for each operation. -/

namespace Sys2Proof.Machine

variable {σ : Scope}

/-! ### Knives -/

@[simp] theorem PerLane.set_set {α : Type} (t : PerLane α) (k : Lane) (a b : α) :
    (t.set k a).set k b = t.set k b := by cases k <;> rfl

@[simp] theorem State.setKnife_setKnife (s : State) (k : Lane) (a b : Knife) :
    (s.setKnife k a).setKnife k b = s.setKnife k b := by cases k <;> rfl

/-- A knife keeps its state and its legal rows. -/
theorem evolves_rows (s : State) (k : Lane) (n : Knife)
    (hstate : n.state = (s.knife k).state) (h : (s.knife k).RowsLegal → n.RowsLegal) :
    Evolves s (s.setKnife k n) :=
  evolves_setKnife s k n h fun _ r hr => ⟨r, by rw [← hstate, hr], .refl r⟩

/-- A recompute of STROKE LIFE with its test (R123). -/
theorem State.testLife_evolves (s : State) (k : Lane) (n : Knife)
    (hstate : n.state = (s.knife k).state)
    (h : (s.knife k).RowsLegal → 1 ≤ n.lifeN ∧ n.lifeN ≤ 253 ∧ 1 ≤ n.lifeWorst ∧
      1 ≤ n.timeN ∧ n.timeN ≤ 253 ∧ 1 ≤ n.timeWorst ∧ n.timeWorst ≤ n.timeN) :
    Evolves s ((s.setKnife k n).testLife k) := by
  have rows : ∀ m : Knife, m.lifeN = n.lifeN → m.lifeWorst = min n.lifeWorst n.lifeN →
      m.timeN = n.timeN → m.timeWorst = n.timeWorst → (s.knife k).RowsLegal → m.RowsLegal := by
    intro m h1 h2 h3 h4 hr
    have := h hr
    unfold Knife.RowsLegal
    rw [h1, h2, h3, h4]
    omega
  unfold State.testLife
  dsimp only
  rw [State.knife_setKnife_same]
  split
  · rw [State.setKnife_setKnife]
    refine Evolves.trans (evolves_rows s k _ ?_ (rows _ ?_ ?_ ?_ ?_)) (State.report_cascade _ _ : Cascade .all _ _).evolves <;>
      first | exact hstate | rfl
  · rw [State.setKnife_setKnife]
    refine evolves_rows s k _ ?_ (rows _ ?_ ?_ ?_ ?_) <;> first | exact hstate | rfl

/-- A recompute of STROKE TIME with its test (R123). -/
theorem State.testTime_evolves (s : State) (k : Lane) (n : Knife)
    (hstate : n.state = (s.knife k).state)
    (h : (s.knife k).RowsLegal → 1 ≤ n.timeN ∧ n.timeN ≤ 253 ∧ 1 ≤ n.timeWorst ∧
      1 ≤ n.lifeN ∧ n.lifeN ≤ 253 ∧ 1 ≤ n.lifeWorst ∧ n.lifeWorst ≤ n.lifeN) :
    Evolves s ((s.setKnife k n).testTime k) := by
  have rows : ∀ m : Knife, m.timeN = n.timeN → m.timeWorst = min n.timeWorst n.timeN →
      m.lifeN = n.lifeN → m.lifeWorst = n.lifeWorst → (s.knife k).RowsLegal → m.RowsLegal := by
    intro m h1 h2 h3 h4 hr
    have := h hr
    unfold Knife.RowsLegal
    rw [h1, h2, h3, h4]
    omega
  unfold State.testTime
  dsimp only
  rw [State.knife_setKnife_same]
  split
  · rw [State.setKnife_setKnife]
    refine Evolves.trans (evolves_rows s k _ ?_ (rows _ ?_ ?_ ?_ ?_)) (State.report_cascade _ _ : Cascade .all _ _).evolves <;>
      first | exact hstate | rfl
  · rw [State.setKnife_setKnife]
    refine evolves_rows s k _ ?_ (rows _ ?_ ?_ ?_ ?_) <;> first | exact hstate | rfl

theorem State.countStroke_evolves (s : State) (k : Lane) : Evolves s (s.countStroke k) := by
  refine s.testLife_evolves k _ rfl fun h => ?_
  obtain ⟨⟨-, -, h3, -⟩, h5, h6, h7, h8⟩ := h
  exact ⟨(lifeN_range ..).1, (lifeN_range ..).2, h3, h5, h6, h7, h8⟩

theorem State.timeStroke_evolves (s : State) (k : Lane) (d : Nat) :
    Evolves s (s.timeStroke k d) := by
  refine s.testTime_evolves k _ rfl fun h => ?_
  obtain ⟨⟨h1, h2, h3, h4⟩, -, -, h7, -⟩ := h
  exact ⟨(timeN_range ..).1, (timeN_range ..).2, h7, h1, h2, h3, h4⟩

/-- A knife leaves STROKE, or keeps its state, with its rows. -/
theorem evolves_knifeState (s : State) (k : Lane) (n : Knife)
    (hrows : (s.knife k).RowsLegal → n.RowsLegal)
    (h : ∀ r, n.state = .stroke r → ∃ r', (s.knife k).state = .stroke r' ∧ r'.Continues r) :
    Evolves s (s.setKnife k n) := evolves_setKnife s k n hrows fun _ => h

theorem State.endStroke_evolves (s : State) (k : Lane) (d : Nat) : Evolves s (s.endStroke k d) :=
  (((evolves_knifeState s k _ (by exact id) (by
      intro r hr
      split at hr <;> cases hr)).trans (State.countStroke_evolves _ k)).trans
    (State.timeStroke_evolves _ k d)).trans (State.settleWaiter_cascade (σ := .all) _ k rfl).evolves

theorem State.timeoutStroke_evolves (s : State) (k : Lane) (r : Stroke) :
    Evolves s (s.timeoutStroke k r) :=
  (((evolves_knifeState s k _ (by exact id) (by intro r hr; cases hr)).trans
    (State.countStroke_evolves _ k)).trans (State.settleWaiter_cascade (σ := .all) _ k rfl).evolves).trans
    (State.reportLaneDamage_cascade _ _ : Cascade .all _ _).evolves

theorem State.strokeTimeout_evolves (s : State) (k : Lane) : Evolves s (s.strokeTimeout k) := by
  unfold State.strokeTimeout
  split
  · exact s.timeoutStroke_evolves ..
  all_goals exact .refl s

theorem State.setHome_evolves (s : State) (k : Lane) (b : Bool) : Evolves s (s.setHome k b) :=
  evolves_rows s k _ rfl (by exact id)

theorem State.homeLeave_evolves (s : State) (k : Lane) : Evolves s (s.homeLeave k) := by
  unfold State.homeLeave
  dsimp only
  split
  · split
    · next r hr => exact evolves_knifeState s k _ (by exact id) (fun x hx => by
        cases hx; exact ⟨r, hr, rfl, le_rfl, fun _ => rfl⟩)
    all_goals exact s.setHome_evolves k false
  · exact .refl s

theorem State.homeReturn_evolves (s : State) (k : Lane) (d : Nat) :
    Evolves s (s.homeReturn k d) := by
  unfold State.homeReturn
  dsimp only
  split
  · exact .refl s
  · split
    · split
      · split
        · exact (s.timeoutStroke_evolves ..).trans (State.setHome_evolves ..)
        · exact (s.setHome_evolves ..).trans (State.endStroke_evolves ..)
      · exact s.setHome_evolves k true
    all_goals exact s.setHome_evolves k true

theorem State.endPulse_evolves (s : State) (k : Lane) : Evolves s (s.endPulse k) :=
  evolves_rows s k _ rfl (by exact id)

/-! ### Registration -/

theorem State.stray_evolves (s : State) (k : Lane) : Evolves s (s.stray k) := by
  unfold State.stray
  have h := evolves_setLane s k { s.lane k with strayCount := (s.lane k).strayCount + 1 }
    (fun h => h.2 k) fun h => .inr ⟨h, rfl⟩
  dsimp only
  split
  · exact h.trans (State.reportRecovery_cascade _ k _ : Cascade .all _ _).evolves
  · exact h

theorem LaneRec.accept_legal (r : LaneRec) (w obs : Word) (h : LegalScale r.scale) :
    LegalScale (r.accept w obs).scale := by
  unfold LaneRec.accept
  dsimp only
  split
  · exact h
  all_goals
    split
    · exact steppedScale_legal ..
    · exact h

theorem State.acceptReports_cascade (s : State) (k : Lane) (q : Half × Half) (r : LaneRec)
    (w obs : Word) : Cascade σ s (s.acceptReports k q r w obs) := by
  have hr : ∀ (t : State) (x : Record) (b : Prop) [Decidable b],
      Cascade σ t (if b then t.report x else t) := by
    intro t x b _
    split
    · exact t.report_cascade x
    · exact .refl t
  have hc : ∀ (t : State) (b : Prop) [Decidable b],
      Cascade σ t (if b then t.countRecovery k else t) := by
    intro t b _
    split
    · exact t.countRecovery_cascade k
    · exact .refl t
  unfold State.acceptReports
  dsimp only
  refine Cascade.trans ?_ (hc _ _)
  refine Cascade.trans ?_ (hc _ _)
  refine Cascade.trans ?_ (hr _ _ _)
  split
  · exact s.report_cascade _
  · exact .refl s

/-- An acceptance is the lane's new record, then a cascade (R78). -/
theorem State.accept_cascade (s : State) (k : Lane) (x : Expected) (obs : Word) :
    Cascade ⟨true, false, false⟩ (s.setLane k ((s.lane k).accept x.w obs)) (s.accept k x obs) :=
  ((State.acceptReports_cascade ..).trans (State.setMark_cascade ..)).trans
    (State.handOn_cascade _ k rfl)

theorem State.accept_evolves (s : State) (k : Lane) (x : Expected) (obs : Word) :
    Evolves s (s.accept k x obs) :=
  (evolves_setLane s k ((s.lane k).accept x.w obs) (fun h => LaneRec.accept_legal _ _ _ (h.2 k))
    fun h => .inr ⟨h, rfl⟩).trans
    (s.accept_cascade k x obs).evolves

theorem State.judgeEdge_evolves (s : State) (k : Lane) : Evolves s (s.judgeEdge k) := by
  unfold State.judgeEdge
  dsimp only
  split
  · exact s.stray_evolves k
  · split
    · exact s.accept_evolves ..
    · exact s.stray_evolves k

theorem State.markEdge_evolves (s : State) (k : Lane) : Evolves s (s.markEdge k) := by
  unfold State.markEdge
  split
  · exact ((s.loadCopy_cascade k).trans (State.moveExpiry_cascade _ k rfl) : Cascade .all _ _).evolves.trans
      (State.judgeEdge_evolves ..)
  · exact .refl s

theorem State.enterAcquire_evolves (s : State) (k : Lane) : Evolves s (s.enterAcquire k) :=
  (s.loadCopy_cascade k : Cascade .all _ _).evolves.trans (evolves_setLane _ k _ (by
    intro h
    rw [State.loadCopy, State.lane_setLane_same]
    exact h.1) fun h => .inr ⟨h, rfl⟩)

theorem State.disarmLane_cascade (s : State) (k : Lane) : Cascade σ s (s.disarmLane k) :=
  (Cascade.panels s k Panel.disarmed (fun _ => rfl) (fun _ h => h)).trans
    (Cascade.departures _ fun e => !(e.lane == k && !e.committed))

/-- LANE REACQUIRE is the entry to ACQUIRE, then a cascade (R87, R88). -/
theorem State.reacquire_cascade (s : State) (k : Lane) :
    Cascade ⟨true, false, false⟩ (s.enterAcquire k) (s.reacquire k) :=
  (State.disarmLane_cascade ..).trans (State.handOn_cascade _ k rfl)

theorem State.reacquire_evolves (s : State) (k : Lane) : Evolves s (s.reacquire k) :=
  (s.enterAcquire_evolves k).trans (s.reacquire_cascade k).evolves

theorem State.finishSettle_cascade (s : State) (k : Lane) (h : (s.lane k).settleRemaining = 0)
    (h1 : σ.settles = true) (h2 : σ.expires = true) : Cascade σ s (s.finishSettle k) :=
  (Cascade.lane s k { s.lane k with settling := false } rfl rfl rfl rfl
    (.inl ⟨h1, fun hp => absurd h (Nat.ne_of_gt hp)⟩) (.inl h2)).trans
    (State.moveExpiry_cascade _ k h2)

/-! ### Position events of a lane -/

theorem State.takeLead_cascade (s : State) (k : Lane) : Cascade σ s (s.takeLead k) := by
  unfold State.takeLead
  split
  · exact ((s.updatePanel_cascade k _ (fun x => { x with state := .web }) (fun _ => rfl)
      (fun _ _ => by simp)).trans (State.reviewExpected_cascade ..)).trans
      (State.laneScan_cascade ..)
  · exact .refl s

theorem State.takeTail_cascade (s : State) (k : Lane) : Cascade σ s (s.takeTail k) := by
  unfold State.takeTail
  split
  · next q h => exact s.doneEvent_cascade k q (List.mem_of_find?_eq_some h)
  · exact .refl s

theorem State.takeCommit_cascade (s : State) (k : Lane) : Cascade σ s (s.takeCommit k) := by
  unfold State.takeCommit
  split
  · exact s.commitEntry_cascade ..
  · exact .refl s

theorem State.takeFire_cascade (s : State) (k : Lane) (hσ : σ.strokes = true) :
    Cascade σ s (s.takeFire k) := by
  unfold State.takeFire
  split
  · exact s.fire_cascade k _ hσ
  · exact .refl s

theorem State.takeDeadline_cascade (s : State) (k : Lane) : Cascade σ s (s.takeDeadline k) := by
  unfold State.takeDeadline
  split
  · exact s.missAction_cascade ..
  · exact .refl s

theorem State.takeExpiry_cascade (s : State) (k : Lane) (hσ : σ.expires = true) :
    Cascade σ s (s.takeExpiry k) := by
  unfold State.takeExpiry
  split
  · exact s.expire_cascade k hσ
  · exact .refl s

theorem State.takeSettle_cascade (s : State) (k : Lane) (h1 : σ.settles = true)
    (h2 : σ.expires = true) : Cascade σ s (s.takeSettle k) := by
  unfold State.takeSettle
  split
  · next h =>
    simp only [State.dueSettle, Bool.and_eq_true, beq_iff_eq] at h
    exact s.finishSettle_cascade k h.2 h1 h2
  · exact .refl s

theorem State.scanLanes_cascade (s : State) : Cascade σ s s.scanLanes :=
  (((s.laneScan_cascade .l0).trans (State.laneScan_cascade ..)).trans
    (State.laneScan_cascade ..)).trans (State.laneScan_cascade ..)

/-! ### The tension unit -/

@[simp] theorem Splice.pass_passed (x : Splice) : x.pass.passed = true := rfl
@[simp] theorem Splice.pass_passage (x : Splice) : x.pass.passage = .delivered := rfl
@[simp] theorem Splice.pass_nip (x : Splice) : x.pass.nip = x.nip := rfl
@[simp] theorem Splice.pass_retire (x : Splice) : x.pass.retire = x.retire := rfl

/-- The lowering of the high-water changes a record's passage event and nothing else (R6). -/
theorem Splice.lowered_eq (x : Splice) (w : Word) :
    x.lowered w = { x with passage := (x.lowered w).passage } := by
  unfold Splice.lowered
  split <;> rfl

@[simp] theorem State.compareIndex_ten (s : State) :
    s.compareIndex.ten = { s.ten with breakWatch := if s.standing .filmBreak then .held else .clear } :=
  rfl
@[simp] theorem State.compareIndex_lnc (s : State) : s.compareIndex.lnc = s.lnc := rfl
@[simp] theorem State.lowerHighWater_mot (s : State) :
    s.lowerHighWater.mot = { s.mot with highWater := s.mot.highWater - 1 } := rfl
@[simp] theorem State.lowerHighWater_ten (s : State) : s.lowerHighWater.ten =
    { s.ten with splices := s.ten.splices.map (Splice.lowered s.mot.highWater) } := rfl

/-- A profile switch is the switch with its duty, then the tension-change signal (R137). -/
theorem State.switchProfile_cascade (s : State) (p : Profile) (h1 : σ.settles = true)
    (h2 : σ.expires = true) :
    Cascade σ (s.setTen { s.ten with profile := p }).refreshDuty (s.switchProfile p) :=
  State.tensionChange_cascade _ h1 h2

theorem voidSpliced_cascade (w : Word) (a : Bool) (ps : List (Lane × Half)) (s : State) :
    Cascade σ s (voidSpliced w a ps s) := by
  induction ps generalizing s a with
  | nil => exact .refl s
  | cons x ps ih => exact (s.voidPanel_cascade ..).trans (ih ..)

/-- TEN sets D: a cascade that changes the duty only (R133). -/
theorem State.refreshDuty_cascade (s : State) : Cascade σ s s.refreshDuty :=
  Cascade.line s s.lnc.haltCause s.lnc.line id

theorem State.refreshDuty_follows (s : State) : s.refreshDuty.DutyFollows := rfl

/-! ### The two timer events of a knife -/

theorem State.takeKnifeTimers_evolves (s : State) (k : Lane) : Evolves s (s.takeKnifeTimers k) := by
  have h : ∀ t : State, Evolves s t →
      Evolves s (if t.timeoutDue k then t.strokeTimeout k else t) := fun t ht => by
    split
    · exact ht.trans (t.strokeTimeout_evolves k)
    · exact ht
  refine h (if s.pulseDue k then s.endPulse k else s) ?_
  split
  · exact s.endPulse_evolves k
  · exact .refl s

end Sys2Proof.Machine
end

