-- ==== Sys2Proof/Laws/Ports.lean ====
section
/-! SUPPORT. The taking of a request (R180 to R182), said once: what a request command answers by the phase,
the right and the verdict, and how the frames of a reply compose. -/

namespace Sys2Proof.Machine

/-- The reply bytes of the framer are those of Figure 10-1. -/
theorem Reply.frame_eq (c : ReplyCode) (b : List Byte) :
    Reply.frame ⟨c, b⟩ = replyBytes c.code b := rfl

/-- In BODY with `m + 1` body bytes to come, `m + 1` bytes take a framer to CHECK (R180). -/
theorem FramerPhase.iterate_body (m : Nat) :
    Nat.iterate FramerPhase.afterByte (m + 1) (.body, m + 1) = (.check, 0) := by
  induction m with
  | zero => rfl
  | succ m ih => rw [Nat.iterate]; exact ih

/-- A framer in KIND has taken its whole frame after the kind, the length, the body bytes and the CRC (R180). -/
theorem FramerPhase.after_frame (n : Nat) : FramerPhase.kind.after n (n + 3) = .reply := by
  cases n with
  | zero => rfl
  | succ m =>
    show (Nat.iterate FramerPhase.afterByte (m + 1 + 1) (.body, m + 1)).1 = .reply
    have h : ∀ (j : Nat) (x : FramerPhase × Nat), Nat.iterate FramerPhase.afterByte (j + 1) x
        = FramerPhase.afterByte (Nat.iterate FramerPhase.afterByte j x) := by
      intro j
      induction j with
      | zero => intro x; rfl
      | succ j ih => intro x; rw [Nat.iterate, ih]; rfl
    rw [h, FramerPhase.iterate_body]
    rfl

/-- The framer that an answered frame leaves: in REPLY with the reply to shift out (R180). -/
theorem State.sendReply_framer {s : State} {p : Port} (body : List Byte) (r : Reply)
    (h : s.receiving p = true) : s.sendReply p body r
      = s.setFramer p { s.framer p with phase := .reply, out := r.frame } := by
  have hk : (s.framer p).phase = .kind := by simpa [State.receiving] using h
  rw [State.sendReply, hk, FramerPhase.after_frame]

/-- Outside phase KIND a request command changes nothing (R180). -/
theorem takeRequest_idle {p : Port} {r : Request} {b : List Byte} {rule : State → Verdict} {s : State}
    (h : s.receiving p = false) : takeRequest p r b rule s = .next s := by
  simp [takeRequest, h]

/-- A port without the right is answered NOT PERMITTED (step 3 of R182). -/
theorem takeRequest_forbidden {p : Port} {r : Request} {b : List Byte} {rule : State → Verdict}
    {s : State} (h : s.receiving p = true) (ha : r.allowed p = false) :
    takeRequest p r b rule s
      = .next ((s.markPresent p).sendReply p b ((s.markPresent p).notPermitted r)) := by
  simp [takeRequest, h, State.request, ha]

/-- A refused request makes its report and is answered (step 4 of R182). -/
theorem takeRequest_refused {p : Port} {r : Request} {b : List Byte} {rule : State → Verdict}
    {s : State} {c : ReplyCode} {body : List Byte} {f : State → State} (h : s.receiving p = true)
    (ha : r.allowed p = true) (hv : rule (s.markPresent p) = .refused c body f) :
    takeRequest p r b rule s = .next ((f (s.markPresent p)).sendReply p b ⟨c, body⟩) := by
  simp [takeRequest, h, State.request, ha, hv, State.answer]

/-- An accepted request joins the history, has its effects and is answered (step 4 of R182, R177). -/
theorem takeRequest_accepted {p : Port} {r : Request} {b : List Byte} {rule : State → Verdict}
    {s : State} {f : State → State × List Byte} (h : s.receiving p = true) (ha : r.allowed p = true)
    (hv : rule (s.markPresent p) = .accepted f) :
    takeRequest p r b rule s
      = .next ((f ((s.markPresent p).recordRequest p r b)).1.sendReply p b
          ⟨.accepted, (f ((s.markPresent p).recordRequest p r b)).2⟩) := by
  simp [takeRequest, h, State.request, ha, hv, State.answer]

/-- Whatever a request is answered, the commands that wait stay, if its rule leaves them. -/
theorem takeRequest_pending {p : Port} {r : Request} {b : List Byte} {rule : State → Verdict}
    {s t : State} (hrefused : ∀ c body f u, rule (s.markPresent p) = .refused c body f →
      u.pending = s.pending → (f u).pending = s.pending)
    (haccepted : ∀ f u, rule (s.markPresent p) = .accepted f →
      u.pending = s.pending → (f u).1.pending = s.pending)
    (h : takeRequest p r b rule s = .next t) : t.pending = s.pending := by
  unfold takeRequest at h
  split at h
  · cases h
    unfold State.request
    dsimp only
    split
    · cases hv : rule (s.markPresent p) with
      | refused c body f => exact hrefused c body f _ hv rfl
      | accepted f =>
        refine haccepted f _ hv ?_
        unfold State.recordRequest
        split <;> rfl
    · rfl
  · cases h; rfl

/-- A reply changes the framer of its port and no other part. -/
theorem sendReply_sameBut (s : State) (p : Port) (b : List Byte) (r : Reply) :
    s.SameBut [.framers] (s.sendReply p b r) := by
  intro x hx
  cases x <;> first | rfl | exact absurd (List.mem_singleton.2 rfl) hx

/-- Presence is the only part that becoming present changes. -/
theorem markPresent_sameBut (s : State) (p : Port) : s.SameBut [.present] (s.markPresent p) := by
  intro x hx
  cases x <;> first | rfl | exact absurd (List.mem_singleton.2 rfl) hx

/-- Frames compose. -/
theorem State.SameBut.trans {ps qs : List Part} {s t u : State} (a : s.SameBut ps t)
    (b : t.SameBut qs u) : s.SameBut (ps ++ qs) u := by
  intro x hx
  have ha := a x fun h => hx (List.mem_append.2 (.inl h))
  have hb := b x fun h => hx (List.mem_append.2 (.inr h))
  cases x <;> exact Eq.trans hb ha

/-- A frame that names more parts. -/
theorem State.SameBut.mono {ps qs : List Part} {s t : State} (a : s.SameBut ps t)
    (h : ∀ x ∈ ps, x ∈ qs) : s.SameBut qs t := fun x hx => a x fun hm => hx (h x hm)

end Sys2Proof.Machine
end

