-- ==== Sys2Proof/Tests/Slice0.lean ====
section
/-! SUPPORT. The model's own tests: ill-formed commands, one or two tests of one step for each command with
figures worked out in the manual's tables and examples, and for each statement with hypotheses a state and
operands that meet them. -/

open Sys2Proof Sys2Proof.Machine

namespace Sys2Proof.Tests

-- One theorem after another: tests that wait for each other in parallel take a thread and its stack each.
set_option Elab.async false

/-! ### Helpers -/

/-- The state that a command leaves. -/
def after (i : Instr) (s : State) : State :=
  match exec i s with
  | .next t => t
  | .fault _ | .refused _ => s

/-- The port in phase KIND. -/
def opened (p : Port) (s : State) : State := s.setFramer p { cs := true, phase := .kind, out := [] }

/-- The reply without its CRC. -/
def answerOf (p : Port) (s : State) : List Byte := (s.framer p).out.dropLast

/-- The reply to a request sent in this state. -/
def asked (p : Port) (i : Instr) (s : State) : List Byte := answerOf p (after i (opened p s))

/-- The line in a state, with a running loop that is not stale. -/
def inState (l : LineState) (s : State) : State :=
  (s.setLnc { s.lnc with line := l }).setLpm { s.lpm with stale := false, lp := 21000 }

/-- The line reading and the high-water at a count. -/
def atLine (n : Nat) (s : State) : State :=
  s.setMot { s.mot with l := BitVec.ofNat 32 n, highWater := BitVec.ofNat 32 n }

/-- The print reading at a count. -/
def atPrint (n : Nat) (s : State) : State := s.setMot { s.mot with p := BitVec.ofNat 32 n }

/-- A panel of lane 0 with one mark and these actions. -/
def panelAt (serial : Half) (st : PanelState) (lead tail : Nat) (as : List ActionEntry) : Panel :=
  { serial := serial, tag := 7, lane := .l0, wLead := 1000, length := 5000, quality := .good,
    reprintOf := none, state := st, voidCause := none, marks := [⟨500, .pending⟩], actions := as,
    disposition := none, leadReading := BitVec.ofNat 32 lead, tailEvent := BitVec.ofNat 32 tail }

/-- A CUT of a panel at offset 4,000. -/
def cut (st : ActionStatus) : ActionEntry := ⟨4000, .cut, st⟩

/-- A fire list entry of lane 0 for action 0 of a panel. -/
def entryOf (serial : Half) (f : Nat) (committed : Bool) (deadline : Option Word) : FireEntry :=
  { lane := .l0, serial := serial, index := 0, kind := .cut, f := BitVec.ofNat 32 f, heldLead := 0,
    committed := committed, deadline := deadline, order := 0 }

/-- A stroke in flight. -/
def strokeAt (phase : StrokePhase) : KnifeState :=
  .stroke { phase := phase, timer := 0, timeoutMs := 250, kind := .cut, serial := 5, index := 0 }

/-- The state with a knife in this state. -/
def withKnife (k : Lane) (x : KnifeState) (home : Bool) (s : State) : State :=
  s.setKnife k { s.knife k with state := x, home := home }

/-- One line on each port present. -/
def allPresent (s : State) : State := s.setCnd { s.cnd with present := .all true }

/-! ### Ill-formed commands (WellFormed) -/

/-- A body above 255 bytes does not fit its length byte. -/
theorem test_wellFormed_body : (Instr.identify .pp (List.replicate 256 0)).wellFormed = false := by decide +kernel
/-- The CRC of a FRAME_ERROR is not that of its frame: IDENTIFY is 01h, 00h, 15h (R181). -/
theorem test_wellFormed_crc : (Instr.frameError .pp 0x01 [] 0x15).wellFormed = false := by decide +kernel
theorem test_wellFormed_frameError : (Instr.frameError .pp 0x01 [] 0x14).wellFormed = true := by decide +kernel
/-- The body of a FRAME_ERROR fits its length byte too. -/
theorem test_wellFormed_frameError_body :
    (Instr.frameError .pp 0x01 (List.replicate 256 0) 0).wellFormed = false := by decide +kernel
/-- 09h is MASK SET, so that it is no unknown request (Table 10-1). -/
theorem test_wellFormed_unknown : (Instr.unknownRequest .pp 0x09 []).wellFormed = false := by decide +kernel
theorem test_wellFormed_unknown_body :
    (Instr.unknownRequest .pp 0x0C (List.replicate 256 0)).wellFormed = false := by decide +kernel
/-- A duration of a home return is 1 to 100,000 units (Table 6-2). -/
theorem test_wellFormed_duration : (Instr.homeReturn .l0 0).wellFormed = false := by decide
theorem test_wellFormed_duration_high : (Instr.homeReturn .l0 100001).wellFormed = false := by decide

/-! ### Resets and the lines of the ports -/

/-- R111: a knife whose home input is inactive at the release starts in FAULT. -/
theorem test_powerOnReset :
    (after (.powerOnReset { pinsAtRest with home1 := false }) State.reset).knc.knives.map (·.state) =
      ⟨.ready, .fault, .ready, .ready⟩ := by decide
/-- R1: the decoders take the channel levels at the release. -/
theorem test_pinReset :
    (after (.pinReset { pinsAtRest with lineChannels := ⟨true, false⟩ })
      (inState .run State.reset)).mot.linePhase = ⟨true, false⟩ := by decide
/-- R180. -/
theorem test_csAssertion : ((after (.csAssertion .fp) State.reset).framer .fp).phase = .kind := by decide
/-- R180: 00h while the frame comes in, the reply bytes, then FFh; nothing in WAIT. -/
theorem test_csAssertion_shiftsOut :
    let f := (after (.csAssertion .fp) State.reset).framer .fp
    let r : Framer := { f with phase := .reply, out := [0, 1] }
    (f.shiftsOut 0, r.shiftsOut 1, r.shiftsOut 2, (State.reset.framer .fp).shiftsOut 0) =
      (some 0x00, some 1, some 0xFF, none) := by decide
theorem test_csRelease :
    ((after (.csRelease .fp) (opened .fp State.reset)).framer .fp) = ⟨false, .wait, []⟩ := by decide
theorem test_replyComplete :
    ((after (.replyComplete .fp) (State.reset.setFramer .fp ⟨true, .reply, [0, 0, 0]⟩)).framer .fp).phase =
      .trail := by decide
/-- R181: IDENTIFY with CRC 14h is answered FRAME ERROR and its port stays absent. -/
theorem test_frameError :
    asked .jp (.frameError .jp 0x01 [] 0x14) State.reset = [0x01, 0] ∧
      (after (.frameError .jp 0x01 [] 0x14) (opened .jp State.reset)).cnd.present.get .jp = false := by
  decide +kernel
/-- R182: 0Ch names no request, and a frame with a correct CRC makes its port present. -/
theorem test_unknownRequest :
    asked .jp (.unknownRequest .jp 0x0C [1]) State.reset = [0x02, 0] ∧
      (after (.unknownRequest .jp 0x0C [1]) (opened .jp State.reset)).cnd.present.get .jp = true := by
  decide +kernel

/-! ### Requests of every port -/

/-- R184: part code 0B04h, revision 1, 4 lanes, 96, 64, 24, 16, 32, port 2. -/
theorem test_identify :
    asked .jp (.identify .jp []) State.reset = [0, 10, 0x0B, 0x04, 1, 4, 96, 64, 24, 16, 32, 2] := by
  decide
/-- Table 10-10: OFFLINE, LINE_STOP, no halt cause, LOOP SENSOR standing, configuration valid, PP present. -/
theorem test_statusRead :
    (asked .pp (.statusRead .pp []) State.reset).take 8 = [0, 103, 0, 1, 0, 2, 1, 1] := by decide
theorem test_mapSeek :
    (after (.mapSeek .fp [2]) (opened .fp State.reset)).map.cursors = ⟨.start .l0, .start .l2, .start .l0⟩ := by
  decide
/-- R59: nothing on the map, EMPTY and the cursor at the end. -/
theorem test_mapRead_empty :
    asked .fp (.mapRead .fp []) State.reset = [0x12, 0] ∧
      (after (.mapRead .fp []) (opened .fp State.reset)).map.cursors.fp = .atEnd := by decide
/-- R59: the cursor moves to W_lead + 1. -/
theorem test_mapRead :
    (after (.mapRead .fp [])
      (opened .fp (State.reset.setSeq .l0 [panelAt 5 .loop 100 900 [cut .pending]]))).map.cursors.fp =
      .coordinate .l0 1001 := by decide
/-- Table 10-4: the high limit, item 4 of G3, is 38,000 = 9470h. -/
theorem test_paramRead :
    asked .pp (.paramRead .pp [3, 4, 0]) State.reset = [0, 7, 3, 4, 0, 0, 0, 0x94, 0x70] := by decide
/-- R188: the gain, 1..16, takes 16 and refuses 17. -/
theorem test_paramWrite :
    (after (.paramWrite .pp [1, 4, 0, 0, 0, 0, 16]) (opened .pp State.reset)).params.g1.gain = 16 ∧
      asked .pp (.paramWrite .pp [1, 4, 0, 0, 0, 0, 17]) State.reset = [0x04, 0] := by decide
/-- R188, R183: a write to G0 outside OFFLINE names the line state. -/
theorem test_paramWrite_state :
    asked .pp (.paramWrite .pp [0, 4, 0, 0, 0, 0, 15]) (inState .run State.reset) = [0x06, 2, 1, 2] := by
  decide
theorem test_lock :
    (after (.lock .fp [3]) (opened .fp State.reset)).pif.locks.g3 = some .fp := by decide
/-- R190: LOCK REFUSED for the holder, detail 16 × 3 + 0. -/
theorem test_lock_refused :
    (after (.lock .pp [3]) (opened .pp (State.reset.setLock .g3 (some .fp)))).cnd.queue.map
      (fun r => (r.cause, r.bound, r.detail)) = [(.access .lockRefused, some .fp, 48)] := by decide
theorem test_unlock :
    asked .pp (.unlock .pp [3]) (State.reset.setLock .g3 (some .fp)) = [0x06, 0] := by decide
/-- R192: detail 16 × group + 2. -/
theorem test_lockBreak :
    (after (.lockBreak .jp [1]) (opened .jp (State.reset.setLock .g1 (some .pp)))).cnd.queue.map
      (fun r => (r.cause, r.bound, r.detail)) = [(.access .lockBroken, some .pp, 18)] := by decide
/-- R166: bits 3 and 4 are WARNING and RECOVERY. -/
theorem test_maskSet :
    (after (.maskSet .fp [0x18]) (opened .fp State.reset)).cnd.masks.fp = ⟨false, false, false, true, true⟩ := by
  decide
/-- A queue with a PANEL LOSS record before a LANE DAMAGE record, as in 9.10. -/
def twoRecords : State :=
  State.reset.setQueue [newRecord (.panelLoss .splice) (some .l1) none none none,
    newRecord (.laneDamage .knifeTimeout) (some .l3) none none (some 250)]
/-- R171: LANE DAMAGE ranks above PANEL LOSS, and one record remains. -/
theorem test_conditionTake :
    (asked .fp (.conditionTake .fp []) twoRecords).take 5 = [0, 20, 1, 2, 2] ∧
      (after (.conditionTake .fp []) (opened .fp twoRecords)).cnd.queue.length = 1 := by decide
/-- R172. -/
theorem test_conditionPeek :
    (asked .fp (.conditionPeek .fp []) twoRecords).take 5 = [0, 20, 1, 2, 2] ∧
      (after (.conditionPeek .fp []) (opened .fp twoRecords)).cnd.queue.length = 2 := by decide

/-! ### Plans and print notices (2.8) -/

/-- A plan of 2.8 for lane 1, with the offsets of its first two actions. -/
def planOf (tag : Half) (first second : Nat) : PlanBody :=
  { lane := 1, tag := tag, length := 24000, indication := 0, reprintTag := 0,
    marks := [200, 12000, 23800], actions := [(first, 0), (second, 1), (23900, 0)] }
/-- Table 2-5, requests 1 and 4. -/
theorem test_planAdd :
    (after (.planAdd .jp (planOf 301 500 12500).bytes) (opened .jp State.reset)).freePlans = 63 := by decide
theorem test_planAdd_spacing :
    asked .jp (.planAdd .jp (planOf 305 500 2200).bytes) State.reset = [0x04, 0] := by decide
/-- The state of 2.8 before its first notice, with plans 302 and 303 queued. -/
def noticed : State :=
  ((atPrint 412000 (atLine 388000 (inState .run State.reset))).setPlans .l1
    [(planOf 302 500 12500).plan, (planOf 303 500 12500).plan])
/-- 2.8: W_lead 400,000 with tag 303: lane 1 takes (391,000, 388,000), the panel leads at 397,000 in LOOP. -/
theorem test_printNotice :
    let t := after (.printNotice .pp (noticeBody 1 303 400000 0)) (opened .pp noticed)
    ((t.lane .l1).state, (t.lane .l1).wref, (t.lane .l1).lref) = (.acquire, 391000, 388000) ∧
      (t.seq .l1).map (fun q => (q.tag, q.state, q.leadReading)) = [(303, .loop, 397000)] := by decide
/-- 2.8: the plan ahead is skipped. -/
theorem test_printNotice_skips :
    (after (.printNotice .pp (noticeBody 1 303 400000 0)) (opened .pp noticed)).cnd.queue.map
      (fun r => (r.cause, r.detail, r.ancillary)) = [(.planNotice .planSkipped, 302, false)] := by decide
/-- 2.8: a tag that was skipped is unknown. -/
theorem test_planWithdraw :
    asked .jp (.planWithdraw .jp [1, 0x01, 0x2D]) noticed = [0x10, 0] ∧
      (after (.planWithdraw .jp [1, 0x01, 0x2E]) (opened .jp noticed)).freePlans = 63 := by decide

/-! ### Splices and the brake (7.9) -/

/-- 7.9: the splice at 288,000 retires at 295,500 with a largest knife distance of 7,000, and D is 1,200. -/
theorem test_filmSplice :
    let s := atLine 288000 (inState .run State.reset)
    let s := s.setPif { s.pif with params := { s.params with
      g0 := { s.params.g0 with knifeDistance := ⟨6000, 6000, 6000, 7000⟩ } } }
    let t := after (.filmSplice .fp []) (opened .fp s)
    t.ten.splices.map (·.retire) = [295500] ∧ t.ten.duty = 1200 := by decide
/-- R144: with L_now 7,500 counts behind the high-water the record retires within its entry. -/
theorem test_filmSplice_retires :
    let s := atLine 300000 (inState .run State.reset)
    let t := after (.filmSplice .fp []) (opened .fp (s.setMot { s.mot with l := 293500 }))
    (t.ten.splices, t.ten.profile) = ([], .normal) := by decide
/-- R141: no lane is in use, so the loop reference predicts: 180,000 − 3,000 (as in 2.9). -/
theorem test_webSplice :
    (after (.webSplice .pp (bigEndian 4 226000))
      (opened .pp (atPrint 250000 (atLine 180000 (inState .run State.reset))))).ten.splices.map
      (fun x => (x.nip, x.passed)) = [(177000, true)] := by decide
/-- 7.9: a pulse after 2,997 counts sets the film-low flag, with D 254 in RUN. -/
theorem test_indexPulse :
    let s := inState .run State.reset
    let t := after .indexPulse (s.setTen { s.ten with measured := true, indexDistance := 2997 })
    (t.ten.c, t.ten.filmLow, t.ten.duty) = (some 2997, true, 254) := by decide
/-- R134, R146: a FILM BREAK that the last line advance made due is not lost to the pulse. -/
theorem test_indexPulse_due :
    let s := inState .run State.reset
    let t := after .indexPulse (s.setTen { s.ten with indexDistance := 40001, breakWatch := .due })
    (t.lnc.haltCause, t.ten.indexDistance) = (some .filmBreak, 0) := by decide
/-- R134: the distance has come to exceed 40,000 in RUN. -/
theorem test_filmBreak :
    let s := inState .run State.reset
    let t := after .filmBreak (s.setTen { s.ten with indexDistance := 40001, breakWatch := .due })
    (t.lnc.line, t.lnc.haltCause) = (.halted, some .filmBreak) := by decide
/-- A WEB splice at nip reading 1,000, retiring at 7,500. -/
def spliced : State :=
  State.reset.setTen { State.reset.ten with
    profile := .splice, splices := [State.reset.params.spliceAt .web 1000 false] }
/-- R143: settle restarts at 20,000 on every lane. -/
theorem test_splicePassage :
    let t := after .splicePassage (atLine 1000 spliced)
    (t.ten.splices.map (·.passed), (t.lane .l2).settleRemaining) = ([true], 20000) := by decide
/-- R6: from a back-off of 2^24 − 1 a reverse edge lowers the high-water, and the passage delivered at the
reading it leaves lies ahead again. -/
theorem test_splicePassage_again :
    let t := after .splicePassage (atLine 1000 spliced)
    let u := t.setMot { t.mot with l := t.mot.l - 16777215 }
    (after (.lineEdge ⟨false, true⟩) u).ten.splices.map (fun x => (x.passed, x.passage)) =
      [(true, .ahead)] := by decide
/-- R144: the list empties and the profile is NORMAL. -/
theorem test_retirement :
    let t := after .retirement (atLine 7500 spliced)
    (t.ten.splices, t.ten.profile) = ([], .normal) := by decide

/-! ### Line requests -/

theorem test_lineArm : asked .fp (.lineArm .fp []) State.reset = [0, 1, 1] := by decide
/-- R12: a line started without a working dancer is halted with LOOP SENSOR. -/
theorem test_lineStart :
    let s := State.reset.setLnc { State.reset.lnc with line := .ready }
    asked .fp (.lineStart .fp []) s = [0, 1, 4] ∧
      (after (.lineStart .fp []) (opened .fp s)).lnc.haltCause = some .loopSensor := by decide
theorem test_lineStart_run :
    asked .fp (.lineStart .fp []) (inState .ready State.reset) = [0, 1, 2] := by decide
theorem test_lineStop : asked .fp (.lineStop .fp []) (inState .drain State.reset) = [0, 1, 1] := by decide
/-- R153: an empty line is drained at once. -/
theorem test_lineDrain : asked .jp (.lineDrain .jp []) (inState .run State.reset) = [0, 1, 1] := by decide
theorem test_lineDrain_panels :
    asked .jp (.lineDrain .jp [])
      ((inState .run State.reset).setSeq .l0 [panelAt 5 .loop 100 900 [cut .pending]]) = [0, 1, 3] := by decide
/-- 8.8: the loop at 1,980 refuses the resume with LOOP LOW, bit 2. -/
theorem test_lineResume :
    let s := inState .halted State.reset
    asked .fp (.lineResume .fp []) (s.setLpm { s.lpm with lowStop := true }) = [0x06, 3, 1, 4, 4] ∧
      asked .fp (.lineResume .fp []) s = [0, 1, 2] := by decide
/-- R155: a resume ends the watch of an excess that no longer stands, so that the next excess is an event. -/
theorem test_lineResume_watch :
    let s := inState .halted State.reset
    (after (.lineResume .fp []) (opened .fp
      (s.setTen { s.ten with indexDistance := 30000, breakWatch := .held }))).ten.breakWatch = .clear := by
  decide
/-- R160, R61: OFFLINE, the map empty, and a MAP CLEARED record with the count of freed records. -/
theorem test_lineClear :
    let s := (inState .halted State.reset).setSeq .l0 [panelAt 5 .loop 100 900 [cut .pending]]
    let t := after (.lineClear .fp []) (opened .fp s)
    (t.lnc.line, t.freePanels, t.cnd.queue.map fun r => (r.cause, r.detail)) =
      (.offline, 96, [(.planNotice .mapCleared, 1)]) := by decide

/-! ### Knife requests and attributes (6.7) -/

/-- R118: a disabled knife away from home is not enabled. -/
theorem test_knifeEnable :
    asked .fp (.knifeEnable .fp [2]) (withKnife .l2 .disabled false State.reset) = [0x13, 0] ∧
      (after (.knifeEnable .fp [2])
        (opened .fp (withKnife .l2 .disabled true State.reset))).knc.knives.l2.state = .ready := by decide
/-- R117: a disable in STROKE waits for the stroke's end. -/
theorem test_knifeDisable :
    let t := after (.knifeDisable .fp [2])
      (opened .fp (withKnife .l2 (strokeAt .away) false State.reset))
    (t.knc.knives.l2.state, t.knc.knives.l2.disablePending) = (strokeAt .away, true) := by decide
/-- 6.7: a reset is refused NOT AT HOME, and succeeds on the switch. -/
theorem test_knifeReset :
    asked .fp (.knifeReset .fp [2]) (withKnife .l2 .fault false State.reset) = [0x13, 0] ∧
      asked .fp (.knifeReset .fp [2]) (withKnife .l2 .fault true State.reset) = [0, 0] := by decide
/-- Knife 2 of 6.7 before its second stroke ends: 480,158 strokes, N 11, mean 1,547, N 18. -/
def worn : State :=
  let s := inState .run State.reset
  s.setKnife .l2 { s.knife .l2 with
    state := strokeAt .away, home := false, strokes := 480158, lifeN := 11, lifeWorst := 11,
    mean := 1547, timeN := 18, timeWorst := 18 }
/-- Table 6-5, stroke 2 with d 1,700: 480,159 strokes, N 10 with its latch, mean 1,566, N 12, pre-fail. -/
theorem test_homeReturn :
    let n := (after (.homeReturn .l2 1700) worn).knife .l2
    (n.strokes, n.lifeN, n.lifeLatch, n.mean, n.timeN, n.timeLatch, n.preFail) =
      (480159, 10, true, 1566, 12, false, true) := by decide
theorem test_homeReturn_record :
    (after (.homeReturn .l2 1700) worn).cnd.queue.map (fun r => (r.cause, r.detail)) =
      [(.degradation .knifeWear, 1010)] := by decide
/-- 6.7: the jam of stroke 4: FAULT, and a KNIFE TIMEOUT record with detail 250 and its log entry. -/
theorem test_strokeTimeout :
    let t := after (.strokeTimeout .l2) (worn.setKnife .l2 { worn.knife .l2 with
      strokes := 480160, lifeN := 10, lifeWorst := 10, lifeLatch := true })
    ((t.knife .l2).state, t.cnd.log.count, t.cnd.queue.map fun r => (r.cause, r.detail)) =
      (.fault, 1, [(.laneDamage .knifeTimeout, 250)]) := by decide
theorem test_homeLeave :
    ((after (.homeLeave .l2) (withKnife .l2 (strokeAt .leaving) true State.reset)).knife .l2).state =
      strokeAt .away := by decide
theorem test_firePulseEnd :
    let s := State.reset.setKnife .l2 { State.reset.knife .l2 with fire := true }
    ((after (.firePulseEnd .l2) s).knife .l2).fire = false := by decide
/-- Table 6-3: 480,159 strokes are N 10; Table 6-4: a mean of 1,569 is N 11. -/
theorem test_attributeLoad :
    let t := after (.attributeLoad .jp ([2] ++ bigEndian 3 480159 ++ bigEndian 3 1569 ++ bigEndian 3 0))
      (opened .jp State.reset)
    ((t.knife .l2).lifeN, (t.knife .l2).timeN, (t.knife .l2).preFail) = (10, 11, true) := by decide
theorem test_attributeReset :
    let t := after (.attributeReset .jp [2]) (opened .jp worn)
    ((t.knife .l2).lifeN, (t.knife .l2).mean, (t.knife .l2).state) = (253, 800, strokeAt .away) := by decide
/-- Table 10-12 for a knife after reset. -/
theorem test_attributeRead :
    asked .jp (.attributeRead .jp [0]) State.reset =
      [0, 23, 0, 0, 1, 0, 0, 0, 253, 253, 10, 1, 0, 2, 0, 0, 0, 0, 0x03, 0x20, 253, 253, 10, 0, 0] := by
  decide

/-! ### The map and the lanes -/

/-- R55: the oldest record of the lane is taken, and the free count rises. -/
theorem test_outfeedTake :
    let q : Panel := { panelAt 5 .done 100 900 [] with disposition := some .good }
    let s := State.reset.setMap { State.reset.map with outfeed := [q] }
    (after (.outfeedTake .fp [0]) (opened .fp s)).freePanels = 96 ∧
      asked .fp (.outfeedTake .fp [1]) s = [0x12, 0] := by decide
/-- R87: from COAST to ACQUIRE with Wref = P_now − Lp; R183: TRACK is named. -/
theorem test_laneReacquire :
    let s := atPrint 412000 (atLine 388000 (inState .run State.reset))
    let t := after (.laneReacquire .fp [1])
      (opened .fp (s.setLane .l1 { s.lane .l1 with state := .coast, missCount := 2 }))
    ((t.lane .l1).state, (t.lane .l1).wref, (t.lane .l1).missCount) = (.acquire, 391000, 0) ∧
      asked .fp (.laneReacquire .fp [1]) (s.setLane .l1 { s.lane .l1 with state := .track }) =
        [0x06, 2, 2, 2] := by decide
/-- R50, R47: a first void with BACKED-UP; an unknown serial. -/
theorem test_panelVoid :
    let s := State.reset.setSeq .l0 [panelAt 5 .loop 100 900 [cut .pending]]
    (after (.panelVoid .jp [0, 5]) (opened .jp s)).cnd.queue.map (fun r => (r.cause, r.backedUp)) =
      [(.panelLoss .requested, true)] ∧ asked .jp (.panelVoid .jp [0, 6]) s = [0x10, 0] := by decide
/-- R178: an empty log: pointer 0, count 0, no entry; slot 1 is EMPTY with the pointer and the count. -/
theorem test_logRead :
    asked .jp (.logRead .jp [0]) State.reset = [0, 4, 0, 0, 0, 0] ∧
      asked .jp (.logRead .jp [1]) State.reset = [0x12, 3, 0, 0, 0] := by decide
theorem test_logClear :
    let s := State.reset.setCnd { State.reset.cnd with log := { State.reset.cnd.log with pointer := 2, count := 7 } }
    (after (.logClear .jp []) (opened .jp s)).cnd.log.count = 0 := by decide
/-- R43. -/
theorem test_leadEvent :
    ((after (.leadEvent .l0)
      (atLine 100 (State.reset.setSeq .l0 [panelAt 5 .loop 100 900 [cut .pending]]))).seq .l0).map
      (·.state) = [.web] := by decide
/-- R45, Table 3-5: a panel with its CUT fired and no void is GOOD. -/
theorem test_tailEvent :
    let t := after (.tailEvent .l0) (atLine 900
      (State.reset.setSeq .l0 [panelAt 5 .cutting 100 900 [cut .fired]]))
    t.map.outfeed.map (fun q => (q.serial, q.disposition)) = [(5, some .good)] ∧ t.seq .l0 = [] := by decide
/-- Lane 1 of 4.13 at mark A: TRACK, reference (120,000, 118,460), pred 128,660. -/
def tracked : State :=
  let s := atLine 132672 (inState .run State.reset)
  (s.setLane .l1 { s.lane .l1 with
    state := .track, wref := 120000, lref := 118460
    expected := some { serial := 5, index := 0, w := 130200, pred := 128660, expiry := 132691 } }).setSeq
    .l1 [{ panelAt 5 .web 100 900000 [] with lane := .l1, wLead := 129700 }]
/-- 4.13, mark A: e = +12, S 1,000,294, reference (130,200, 128,672). -/
theorem test_markEdge :
    let t := after (.markEdge .l1) tracked
    ((t.lane .l1).scale, (t.lane .l1).wref, (t.lane .l1).lref) = (1000294, 130200, 128672) := by decide
theorem test_markEdge_error :
    ((after (.markEdge .l1) tracked).seq .l1).map (fun q => q.marks.map (·.status)) = [[.accepted 12]] := by
  decide
/-- 4.13, mark C: a miss in TRACK leads to COAST with miss count 1 and a window of 60. -/
theorem test_windowExpiry :
    let r := (after (.windowExpiry .l1) (atLine 132691 tracked)).lane .l1
    (r.state, r.missCount, r.window) = (.coast, 1, 60) := by decide
/-- R94: a lane that stays in ACQUIRE is not scanned, so that an action beyond reach stays PENDING. -/
theorem test_windowExpiry_acquire :
    let s := (atLine 132691 tracked).setSeq .l1
      [{ panelAt 5 .web 100 900000 [cut .pending] with lane := .l1, wLead := 129700 }]
    let s := s.setLane .l1 { s.lane .l1 with state := .acquire, wref := 150000 }
    ((after (.windowExpiry .l1) s).seq .l1).map (fun q => q.actions.map (·.status)) = [[.pending]] := by
  decide
/-- R84: the window returns from 120 to 30. -/
theorem test_settleEnd :
    let s := State.reset.setLane .l1 { State.reset.lane .l1 with state := .track, settling := true }
    ((s.lane .l1).window, ((after (.settleEnd .l1) s).lane .l1).window) = (120, 30) := by decide

/-! ### The cut scheduler -/

/-- Panel 5 of lane 0 on the web with an entry at F = 1,000. -/
def armed (l : LineState) (n : Nat) (committed : Bool) (deadline : Option Word) : State :=
  ((atLine n (inState l State.reset)).setSeq .l0
    [panelAt 5 .web 100 900000 [cut (if committed then .committed 1000 else .armed 1000)]]).setCsc
    { fireList := [entryOf 5 1000 committed deadline], armings := 1 }
/-- R98: at F − 300. -/
theorem test_commit :
    (after (.commit .l0) (armed .run 700 false none)).csc.fireList.map (·.committed) = [true] := by decide
/-- R102: the stroke begins and the panel is CUTTING. -/
theorem test_fireEvent :
    let t := after (.fireEvent .l0) (armed .run 1000 true none)
    (t.seq .l0).map (fun q => (q.state, q.actions.map (·.status))) = [(.cutting, [.fired])] ∧
      (t.knife .l0).fire = true := by decide
/-- R101: in READY the action misses, JOG. -/
theorem test_fireEvent_jog :
    ((after (.fireEvent .l0) (armed .ready 1000 true none)).seq .l0).map
      (fun q => (q.voidCause, q.actions.map (·.status))) = [(some .jog, [.missed .jog])] := by decide
/-- R104: at the deadline F + 20 + 1 the action misses, KNIFE BUSY. -/
theorem test_deadline :
    ((after (.deadline .l0) (armed .run 1021 true (some 1021))).seq .l0).map
      (fun q => q.actions.map (·.status)) = [[.missed .knifeBusy]] := by decide

/-! ### Motion and the loop -/

/-- Table 1-1: forward from (0, 0) is (1, 0). -/
theorem test_printEdge : (after (.printEdge ⟨true, false⟩) State.reset).mot.p = 1 := by decide
/-- R2: both channels together. -/
theorem test_printEdge_illegal :
    let t := after (.printEdge ⟨true, true⟩) State.reset
    (t.mot.p, t.mot.printErrors, t.cnd.queue.map (·.cause)) = (0, 1, [.recovery .encoderPhase]) := by decide
/-- Table 1-3: the first edge of the jog leaves the high-water. -/
theorem test_lineEdge_reverse :
    let t := after (.lineEdge ⟨false, true⟩) (atLine 200000 State.reset)
    (t.mot.l, t.mot.highWater, t.mot.direction, t.backOff) = (199999, 200000, .reverse, 1) := by decide
/-- R5: a forward edge at the high-water is a line advance. -/
theorem test_lineEdge :
    (after (.lineEdge ⟨true, false⟩) (atLine 200000 State.reset)).mot.highWater = 200001 := by decide
/-- R9: 80 counts in 8 ms. -/
theorem test_timebaseTick : (after .timebaseTick (atLine 80 State.reset)).mot.speed8 = 80 := by decide
/-- Table 1-5: sample 3,800 gives Lp 38,109, sets the loop reason and makes LOOP HIGH. -/
theorem test_loopSample :
    let t := after (.loopSample 3800) State.reset
    (t.lpm.lp, t.lpm.loopReason, t.cnd.queue.map fun r => (r.cause, r.detail)) =
      (38109, true, [(.warning .loopHigh, 38109)]) := by decide
/-- Table 1-4. -/
theorem test_loopSample_top : (after (.loopSample 4095) State.reset).lpm.lp = 40990 := by decide
/-- R12. -/
theorem test_loopStale :
    (after .loopStale (inState .run State.reset)).lnc.haltCause = some .loopSensor := by decide
/-- R10, R194: sample 3,800 = 59 × 64 + 24 has seven ones, so that bit 6 of its first character is set. -/
theorem test_loopRxCharacter :
    let s := after (.loopRxCharacter 0xFB true) State.reset
    (after (.loopRxCharacter 0x18 true) s).lpm.lp = 38109 := by decide
/-- R10: with the parity bit clear the sample is discarded. -/
theorem test_loopRxCharacter_parity :
    let s := after (.loopRxCharacter 0xBB true) State.reset
    ((after (.loopRxCharacter 0x18 true) s).lpm.lp, (after (.loopRxCharacter 0x18 true) s).lpm.rxOpen) =
      (0, none) := by decide

/-! ### Records and the table words -/

/-- No row of the table gives bits, so no word spells a command. -/
theorem test_decodeTableWord : decodeTableWord 8 0x01 = none := by decide
/-- The step takes the front of the queue and leaves the rest. -/
theorem test_step :
    (match step (State.reset.withPending [.loopStale, .indexPulse]) with
      | .next t => t.pending
      | _ => []) = [.indexPulse] := by decide

/-! ### For each statement with hypotheses, states and operands that meet them -/

/-- The expected mark of panel 5 of lane 0 on the reference (0, 0) with the track window of 30. -/
def mark0 : Expected := { serial := 5, index := 0, w := 1500, pred := 1500, expiry := 5531 }

/-- A line in RUN with a splice, a panel on the web with an armed action and an expected mark, a plan and two
records. -/
def busy : State :=
  let s := armed .run 700 false none
  let s := ((s.setLane .l0 { s.lane .l0 with state := .track, expected := some mark0 }).setPlans .l1 [(planOf 302 500 12500).plan]).setQueue
    twoRecords.cnd.queue
  (after (.filmSplice .fp []) (opened .fp s)).withPending [.commit .l0]

theorem busy_steps : ∃ t, step busy = .next t := ⟨_, rfl⟩

theorem busy_safe : busy.Safe where
  queueFits := by unfold State.QueueFits; decide +kernel
  backOffHeld := by unfold State.BackOffHeld; decide +kernel
  scalesLegal := by
    refine ⟨by unfold LegalScale; decide +kernel, fun k => ?_⟩
    cases k <;> (unfold LegalScale; decide +kernel)
  poolsFit := by unfold State.PoolsFit; decide +kernel
  serialsUnique := by unfold State.SerialsUnique; decide +kernel
  plansFit := by unfold State.PlansFit; decide +kernel
  entriesFit := fun k => by cases k <;> decide +kernel
  ordersFit := by unfold State.OrdersFit; decide +kernel
  ordersDistinct := by unfold State.OrdersDistinct; decide +kernel
  fireListOrdered := by unfold State.FireListOrdered InFireOrder; decide +kernel
  entriesMatch := by unfold State.EntriesMatch; decide +kernel
  idleFollows := fun k => by cases k <;> decide +kernel
  expectedFollows := fun k => by cases k <;> decide +kernel
  settleMarked := fun k => by cases k <;> decide +kernel
  splicesFit := by unfold State.SplicesFit; decide +kernel
  dutyFollows := by unfold State.DutyFollows; decide +kernel
  configFollows := by unfold State.ConfigFollows; decide +kernel
  rowsLegal := fun k => by cases k <;> (unfold Knife.RowsLegal; decide +kernel)
  logFits := by unfold State.LogFits; decide +kernel
  poolReasonFollows := by unfold State.PoolReasonFollows; decide +kernel
  outfeedFlagFollows := by unfold State.OutfeedFlagFollows; decide +kernel

theorem witness_StepTakesTheFrontCommand :
    (State.reset.withPending [.loopStale, .indexPulse]).pending = [.loopStale, .indexPulse] ∧
      State.reset.pending = [] := by decide

theorem witness_StepKeepsQueueAndLog : (∃ t, step busy = .next t) ∧ busy.QueueFits ∧ busy.LogFits :=
  ⟨busy_steps, busy_safe.queueFits, busy_safe.logFits⟩

theorem witness_StepKeepsFiguresInRange :
    (∃ t, step busy = .next t) ∧ busy.BackOffHeld ∧ busy.ScalesLegal ∧ busy.RowsLegal ∧
      busy.SettleMarked ∧ 0 < (busy.lane .l0).settleRemaining :=
  ⟨busy_steps, busy_safe.backOffHeld, busy_safe.scalesLegal, busy_safe.rowsLegal, busy_safe.settleMarked,
    by decide +kernel⟩

theorem witness_StepKeepsPools :
    (∃ t, step busy = .next t) ∧ busy.PoolsFit ∧ busy.SerialsUnique ∧ busy.OutfeedFlagFollows ∧
      busy.PoolReasonFollows ∧ busy.PlansFit :=
  ⟨busy_steps, busy_safe.poolsFit, busy_safe.serialsUnique, busy_safe.outfeedFlagFollows,
    busy_safe.poolReasonFollows, busy_safe.plansFit⟩

theorem witness_StepKeepsListBounds :
    (∃ t, step busy = .next t) ∧ busy.EntriesFit ∧ busy.SplicesFit ∧ busy.OrdersFit ∧
      busy.OrdersDistinct ∧ busy.csc.fireList ≠ [] :=
  ⟨busy_steps, busy_safe.entriesFit, busy_safe.splicesFit, busy_safe.ordersFit, busy_safe.ordersDistinct,
    by decide +kernel⟩

/-- An entry at the high-water, two of one fire position, and one at the end of the reach. -/
theorem witness_StepKeepsListBounds_order :
    let e (n f : Nat) : FireEntry := { entryOf 5 f false none with index := n, order := n }
    let s := (armed .run 700 false none).setCsc
      { fireList := [e 2 700, e 0 1000, e 1 1000, e 3 (700 + 2147483646)], armings := 4 }
    (∃ t, step s = .next t) ∧ s.OrdersFit ∧ s.OrdersDistinct ∧ s.BackOffHeld ∧ s.FiresInReach ∧
      s.FireListOrdered := by
  refine ⟨⟨_, rfl⟩, ?_⟩
  unfold State.OrdersFit State.OrdersDistinct State.BackOffHeld State.FiresInReach State.FireListOrdered
    InFireOrder
  decide +kernel

theorem witness_StepKeepsEntriesAndExpectedMarks :
    (∃ t, step busy = .next t) ∧ busy.SerialsUnique ∧ busy.EntriesMatch ∧ busy.csc.fireList ≠ [] ∧
      busy.IdleFollows ∧ busy.ExpectedFollows ∧ (busy.lane .l0).expected.isSome :=
  ⟨busy_steps, busy_safe.serialsUnique, busy_safe.entriesMatch, by decide +kernel, busy_safe.idleFollows,
    busy_safe.expectedFollows, by decide +kernel⟩

theorem witness_StepKeepsDutyAndConfigFlag :
    (∃ t, step busy = .next t) ∧ busy.DutyFollows ∧ busy.ConfigFollows :=
  ⟨busy_steps, busy_safe.dutyFollows, busy_safe.configFollows⟩

/-- A knife in STROKE while the line stands in READY, and an event that leaves it so; an entry of the fire list
during a back-off of one count. -/
theorem witness_NoStrokeOutsideRunNoArmingInBackOff :
    (∃ s t : State, ∃ r : Stroke, s.lnc.line.running = false ∧ step s = .next t ∧
      (t.knife .l0).state = .stroke r) ∧
    ∃ s t : State, 0 < s.backOff ∧ step s = .next t ∧ t.csc.fireList ≠ [] :=
  ⟨⟨(withKnife .l0 (strokeAt .leaving) true (inState .ready State.reset)).withPending [.homeLeave .l0], _,
    { phase := .away, timer := 0, timeoutMs := 250, kind := .cut, serial := 5, index := 0 }, rfl, rfl,
    by decide⟩,
    (let s := armed .run 500 false none
     (s.setMot { s.mot with l := 499 }).withPending [.homeLeave .l0]), _, by decide, rfl, by decide⟩

theorem witness_PanelsNeverReturnToLoop :
    ∃ (s t : State) (q x : Panel), s.SerialsUnique ∧ q ∈ s.seq .l0 ∧ q.state ≠ .loop ∧
      step s = .next t ∧ x ∈ t.seq .l0 ∧ x.serial = q.serial :=
  ⟨(armed .run 700 false none).withPending [.commit .l0], _,
    panelAt 5 .web 100 900000 [cut (.armed 1000)], panelAt 5 .web 100 900000 [cut (.committed 1000)],
    by unfold State.SerialsUnique; decide, by decide, by decide, rfl, by decide, rfl⟩

/-- A record of lane 0 on the outfeed list. -/
def outfed : State :=
  State.reset.setMap { State.reset.map with
    outfeed := [{ panelAt 5 .done 100 900 [] with disposition := some .good }] }

theorem witness_RecordsLeaveThePoolOnlyThere :
    ∃ (i : Instr) (s t : State) (q : Panel), i.wellFormed = true ∧ s.SerialsUnique ∧ q ∈ s.residents ∧
      exec i s = .next t ∧ ∀ x ∈ t.residents, x.serial ≠ q.serial :=
  ⟨.outfeedTake .fp [0], opened .fp outfed, _,
    { panelAt 5 .done 100 900 [] with disposition := some .good }, by decide,
    by unfold State.SerialsUnique; decide, by decide, rfl, by decide⟩

theorem witness_LockedGroupsAreNotChanged :
    ∃ (i : Instr) (s t : State), i.wellFormed = true ∧ s.pif.locks.get (Param.group .gain) = some .fp ∧
      (∀ b, i ≠ .paramWrite .fp b) ∧ (∀ pins, i ≠ .powerOnReset pins ∧ i ≠ .pinReset pins) ∧
      exec i s = .next t :=
  ⟨.paramWrite .pp [1, 4, 0, 0, 0, 0, 16], opened .pp (State.reset.setLock .g1 (some .fp)), _, by decide,
    by decide, by simp, by simp, rfl⟩

/-! #### The ports -/

/-- A port that receives. -/
def rx (p : Port) : State := opened p State.reset

theorem witness_PortLinesMoveTheFramer :
    State.reset.receiving .pp = false ∧ (State.reset.framer .pp).phase = .wait ∧
      (∀ x ∈ [FramerPhase.kind, .length, .body, .check, .trail],
        ({ phase := x, cs := true, out := [] } : Framer).phase = x) ∧
      (let f : Framer := { phase := .reply, cs := true, out := [7] }
       f.phase = .reply ∧ f.out[0]? = some 7 ∧ f.out.length ≤ 1) ∧ 2 ≤ 2 ∧ 2 < 1 + 2 := by
  decide

theorem witness_FramesRefusedBeforeTheirRule :
    (rx .jp).receiving .jp = true ∧ (0x14 : Byte) ≠ frameCrc 0x01 [] ∧ Request.ofKind 0x0C = none ∧
      Request.allowed .lockBreak .jp = true ∧ (rx .pp).receiving .pp = true ∧
      Request.allowed .lockBreak .pp = false ∧ Request.allowed .lineArm .pp = false := by
  decide +kernel

/-- 1 over the first bit of IDENTIFY is 07h, and its frame has the CRC 15h (R181). -/
theorem test_crc8 : crc8 [0x01] = 0x07 ∧ frameCrc 0x01 [] = 0x15 := by decide

theorem witness_MalformedBodiesAreRefused :
    (rx .jp).receiving .jp = true ∧ Request.allowed .lineDrain .jp = true ∧
      ([0] : List Byte).length ≠ Request.bodyBytes [0] .lineDrain ∧
      Request.allowed .planWithdraw .jp = true ∧ 3 < (([4, 0, 7] : List Byte).headD 0).toNat ∧
      Request.allowed .lockBreak .jp = true ∧ 4 < (([5] : List Byte).headD 0).toNat := by
  decide +kernel

/-- A request that joins the history, one that does not, a refused one, and a port that stays present. -/
theorem witness_FramesEnterHistoryAndPresence :
    (rx .fp).receiving .fp = true ∧
      (∃ t, exec (Request.command .lock .fp [3]) (rx .fp) = .next t) ∧
      answerOf .fp (after (.lock .fp [3]) (rx .fp)) = [0x00, 0] ∧
      (∃ t, exec (Request.command .lock .fp [5]) (rx .fp) = .next t) ∧
      answerOf .fp (after (.lock .fp [5]) (rx .fp)) = [0x04, 0] ∧
      (answerOf .fp (after (.conditionPeek .fp []) (opened .fp twoRecords))).head? = some 0x00 ∧
      (∃ t, exec .loopStale (allPresent State.reset) = .next t) ∧
      (allPresent State.reset).cnd.present.get .jp = true := by
  refine ⟨by decide, ⟨_, rfl⟩, by decide, ⟨_, rfl⟩, by decide, by decide, ⟨_, rfl⟩, by decide⟩

theorem witness_IdentifyTellsThePart : ∀ p, (rx p).receiving p = true := by
  intro p; cases p <;> decide

theorem witness_StatusReadTellsEveryBlock : ∀ p, (rx p).receiving p = true := by
  intro p; cases p <;> decide

/-- A panel in lane 0, one of lane 1 waiting and one of lane 2 on the outfeed list. -/
def mapped : State :=
  (State.reset.setSeq .l0 [panelAt 5 .loop 100 900 [cut .pending]]).setMap
    { (State.reset.setSeq .l0 [panelAt 5 .loop 100 900 [cut .pending]]).map with
      waiting := [{ panelAt 6 .done 100 900 [] with lane := .l1 }]
      outfeed := [{ panelAt 7 .done 100 900 [] with lane := .l2 }] }

/-- The cursor of FP in `mapped`. -/
def seeking (c : Cursor) : State :=
  opened .fp (mapped.setMap { mapped.map with cursors := mapped.map.cursors.set .fp c })

/-- The panel that a cursor finds, by lane, panel and place. -/
def Finds (s : State) (k : Lane) (q : Panel) (place : Nat) : Prop :=
  s.receiving .fp = true ∧ s.SerialsUnique ∧ q.lane = k ∧ s.Stands q place ∧
    q ∈ s.considered (s.map.cursors.get .fp) k ∧
    (∀ x ∈ s.considered (s.map.cursors.get .fp) k, x ≠ q → 0 < x.wLead.diff q.wLead) ∧
    ∀ j, laneNumber j < laneNumber k → s.considered (s.map.cursors.get .fp) j = []

/-- Seeks of lane 3, of lane 4 and of none; reads from the start, from the coordinate of the panel itself, past it,
into the waiting and the outfeed list. -/
theorem witness_MapSeekAndReadWalkTheMap :
    ((rx .pp).receiving .pp = true ∧ (3 : Byte).toNat = laneNumber .l3 ∧ ([] : List Byte).length ≠ 1 ∧
      3 < (([4] : List Byte).headD 0).toNat) ∧
    Finds (seeking (.start .l0)) .l0 (panelAt 5 .loop 100 900 [cut .pending]) 0 ∧
      Finds (seeking (.coordinate .l0 1000)) .l0 (panelAt 5 .loop 100 900 [cut .pending]) 0 ∧
      Finds (seeking (.coordinate .l0 1001)) .l1 { panelAt 6 .done 100 900 [] with lane := .l1 } 1 ∧
      Finds (seeking (.start .l2)) .l2 { panelAt 7 .done 100 900 [] with lane := .l2 } 2 ∧
      ∀ k, (seeking (.start .l3)).considered ((seeking (.start .l3)).map.cursors.get .fp) k = [] := by
  refine ⟨by decide, ⟨?_, ?_, ?_, ?_, ?_, ?_, fun j => ?_⟩, ⟨?_, ?_, ?_, ?_, ?_, ?_, fun j => ?_⟩,
    ⟨?_, ?_, ?_, ?_, ?_, ?_, fun j => ?_⟩, ⟨?_, ?_, ?_, ?_, ?_, ?_, fun j => ?_⟩, fun k => ?_⟩
  all_goals first
    | (unfold State.SerialsUnique; decide) | (simp only [State.Stands]; decide)
    | (cases j <;> decide) | (cases k <;> decide) | decide

/-! #### Parameters and locks -/

/-- Form, lock, state and range at their limits: item 4 of G1 takes 1 to 16, item 4 of G0 only in OFFLINE. -/
theorem witness_ParametersAreReadAndWritten :
    (rx .pp).receiving .pp = true ∧ paramOf 5 0 0 = none ∧ paramOf 1 4 0 = some .gain ∧
      (opened .pp (State.reset.setLock .g1 (some .fp))).pif.locks.get (Param.group .gain) = some .fp ∧
      (opened .pp (State.reset.setLock .g1 (some .fp))).receiving .pp = true ∧
      (rx .pp).pif.locks.get (Param.group .gain) = none ∧
      (opened .pp (State.reset.setLock .g1 (some .pp))).pif.locks.get (Param.group .gain) = some .pp ∧
      paramOf 0 4 0 = some .lanePresent ∧ Param.group .lanePresent = .g0 ∧
      (opened .pp (inState .run State.reset)).lnc.line ≠ .offline ∧
      (opened .pp (inState .run State.reset)).receiving .pp = true ∧
      (rx .pp).params.inRange .gain (17 : Word).toInt = false ∧
      (rx .pp).params.inRange .gain (16 : Word).toInt = true := by
  decide

/-- A cut tolerance of 200, against which a deviation limit of 199 is refused and 200 and 500 are taken, and the
limits of the cut tolerance itself. -/
theorem witness_ParametersAreReadAndWritten_limit :
    let s := (rx .pp).setPif { (rx .pp).pif with params := { (rx .pp).params with
      g4 := { (rx .pp).params.g4 with cutTolerance := 200 } } }
    s.receiving .pp = true ∧ paramOf 4 3 0 = some .deviationLimit ∧ paramOf 4 2 0 = some .cutTolerance ∧
      s.params.value .cutTolerance = 200 ∧ s.pif.locks.get (Param.group .deviationLimit) = none ∧
      ([199, 200, 500, 501] : List Word).map (fun v => s.params.inRange .deviationLimit v.toInt) =
        [false, true, true, false] ∧
      ([4, 5, 200, 201] : List Word).map (fun v => s.params.inRange .cutTolerance v.toInt) =
        [false, true, true, false] := by
  decide

theorem witness_WritesAreHandedOn :
    (rx .pp).receiving .pp = true ∧ paramOf 2 0 0 = some .normalBase ∧ paramOf 2 1 0 = some .spliceBase ∧
      paramOf 2 2 0 = some .minDuty ∧ paramOf 3 6 0 = some .poolReserve ∧
      (∀ q ∈ [Param.normalBase, .spliceBase, .minDuty, .poolReserve, .gain],
        (rx .pp).pif.locks.get q.group = none ∧ ¬(q.group = .g0 ∧ (rx .pp).lnc.line ≠ .offline) ∧
          (rx .pp).params.inRange q (16 : Word).toInt = true) ∧
      (∀ l ∈ [LineState.run, .drain, .ready], (opened .pp (inState l State.reset)).receiving .pp = true ∧
        (opened .pp (inState l State.reset)).lnc.line = l) ∧
      (opened .pp tracked).receiving .pp = true ∧ (opened .pp tracked).lnc.line = .run := by
  decide

/-- With settle its window of 120 puts the expiry of lane 1 of 4.13 at 132,781, ahead of the high-water. -/
theorem tracked_settleHolds (p : Port) : (opened p tracked).SettleHolds := by
  intro k x h
  have g : ∀ k ∈ [Lane.l0, .l1, .l2, .l3], ∀ x ∈ (tracked.settledLane k).expected,
      0 < x.expiry.diff tracked.mot.highWater := by decide +kernel
  cases p <;> exact g k (by cases k <;> decide) x h

theorem witness_LockTakesAFreeGroup :
    (rx .pp).receiving .pp = true ∧ (4 : Byte).toNat = groupNumber .g4 ∧ (rx .pp).pif.locks.get .g4 = none ∧
      (opened .pp (State.reset.setLock .g4 (some .pp))).pif.locks.get .g4 = some .pp ∧
      (opened .pp (State.reset.setLock .g4 (some .fp))).receiving .pp = true ∧
      (opened .pp (State.reset.setLock .g4 (some .fp))).pif.locks.get .g4 = some .fp := by
  decide

theorem witness_UnlockAndBreakFreeAGroup :
    (rx .pp).receiving .pp = true ∧ ([] : List Byte).length ≠ 1 ∧ 4 < (([5] : List Byte).headD 0).toNat ∧
      (4 : Byte).toNat = groupNumber .g4 ∧
      (opened .pp (State.reset.setLock .g4 (some .pp))).pif.locks.get .g4 = some .pp ∧
      (opened .pp (State.reset.setLock .g4 (some .fp))).pif.locks.get .g4 ≠ some .pp ∧
      (opened .jp (State.reset.setLock .g4 (some .fp))).receiving .jp = true ∧
      (opened .jp (State.reset.setLock .g4 (some .fp))).pif.locks.get .g4 = some .fp ∧
      (rx .jp).pif.locks.get .g4 = none := by
  decide

/-! #### Conditions and the error log -/

theorem witness_MaskSetReplacesTheMask :
    (rx .pp).receiving .pp = true ∧ (31 : Byte).toNat < 32 ∧ 32 ≤ (32 : Byte).toNat := by decide

/-- Index distances and back-offs on the two sides of their limits, and a C for FILM END. -/
theorem witness_LinesAndStandingConditionsFollowTheState :
    let ten (n : Nat) := State.reset.setTen { State.reset.ten with indexDistance := n, c := some 2399 }
    let back (n : Nat) := (atLine 5000 State.reset).setMot
      { (atLine 5000 State.reset).mot with l := BitVec.ofNat 32 (5000 - n) }
    ((ten 40000).standing .filmBreak, (ten 40001).standing .filmBreak) = (false, true) ∧
      ((back 2000).standing .reverseLimit, (back 2001).standing .reverseLimit) = (false, true) ∧
      (ten 0).ten.c = some 2399 ∧ (ten 0).causeDetail .filmEnd = 2399 := by
  decide

/-- The second of two records is taken by its rank; a LINE DAMAGE record that JP is owed too stays. -/
theorem witness_TakeAndPeekSelectOneRecord :
    let r1 := newRecord (.panelLoss .splice) (some .l1) none none none
    let r2 := newRecord (.laneDamage .knifeTimeout) (some .l3) none none (some 250)
    let s := opened .fp twoRecords
    let d := { newRecord (.lineDamage .filmEnd) none none none none with owed := .all true }
    let s2 := opened .fp (State.reset.setQueue [d])
    s.receiving .fp = true ∧ s.cnd.queue = [r1] ++ r2 :: [] ∧ (s.cndWith .fp).delivers .fp r2 = true ∧
      (∀ x ∈ [r1], (s.cndWith .fp).delivers .fp x = true → x.cause.takeRank < r2.cause.takeRank) ∧
      ¬(∃ c, r2.cause = .lineDamage c) ∧
      s2.receiving .fp = true ∧ s2.cnd.queue = [] ++ d :: [] ∧ (s2.cndWith .fp).delivers .fp d = true ∧
      (d.cause = .lineDamage .filmEnd ∧ (Port.jp ≠ .fp) ∧ d.owed.get .jp = true) ∧
      (rx .fp).cnd.queue = [] := by
  refine ⟨by decide, by decide, by decide, by decide, ?_, by decide, by decide, by decide, by decide,
    by decide⟩
  rintro ⟨c, h⟩
  exact absurd h (by cases c <;> decide)

/-- A record that merges, one for a free slot, one that discards, one that is discarded. -/
theorem witness_PlacementTakesTheFirstStepThatApplies :
    let w := newRecord (.warning .filmLow) none none none (some 100)
    let v := newRecord (.panelLoss .requested) (some .l0) none none none
    w.cause.merges = true ∧ v.cause.merges = false ∧ [w].length < 32 ∧
      32 ≤ (List.replicate 32 w).length ∧
      List.replicate 32 w = [] ++ w :: List.replicate 31 w ∧ w.cause.discardRank < v.cause.discardRank ∧
      (∀ y ∈ List.replicate 31 w, w.cause.discardRank ≤ y.cause.discardRank) ∧
      List.replicate 32 v = List.replicate 31 v ++ [v] ∧
      ∀ y ∈ List.replicate 32 v, v.cause.discardRank ≤ y.cause.discardRank := by
  decide +kernel

theorem witness_LogIsReadAndCleared :
    let e : LogEntry :=
      { cause := .laneDamage .knifeTimeout, lane := some .l2, position := 0, detail := 250,
        line := .run, laneStates := .all .idle, scales := .all 1000000, history := [] }
    let s := opened .jp (State.reset.setCnd { State.reset.cnd with
      log := { slots := [none, none, none, none, some e], pointer := 5, count := 1 } })
    s.receiving .jp = true ∧ ([] : List Byte).length ≠ 1 ∧ 5 < (([6] : List Byte).headD 0).toNat ∧
      (s.cnd.log.slots.filter Option.isSome).length = 1 ∧ (5 : Byte).toNat = 4 + 1 ∧
      s.cnd.log.slots[4]? = some (some e) ∧ (1 : Byte).toNat = 0 + 1 ∧ s.cnd.log.slots[0]? = some none ∧
      ([0] : List Byte) ≠ [] := by
  decide

/-! #### Plans and print notices -/

theorem witness_PlanBodiesRoundTrip :
    let q := planOf 302 500 12500
    q.lane < 256 ∧ q.length < 16777216 ∧ q.indication < 256 ∧ q.marks.length < 256 ∧
      q.actions.length < 256 ∧ (∀ m ∈ q.marks, m < 16777216) ∧
      (∀ a ∈ q.actions, a.1 < 16777216 ∧ a.2 < 256) ∧ planBody q.bytes = some q := by
  decide +kernel

/-- A tag that is free, one that stands in the queue, a plan store that is full, and, with a spacing of
1,999, a plan that does not fit. -/
theorem witness_PlanAddChecksAndQueues :
    let q := planOf 302 500 12500
    let s := rx .jp
    let full := opened .jp (State.reset.setPlans .l0 (List.replicate 64 q.plan))
    s.receiving .jp = true ∧ planBody q.bytes = some q ∧ q.lane = laneNumber .l1 ∧
      (s.params.isPresent .l1 = true ∧ 1000 ≤ q.length ∧ q.length ≤ 600000 ∧
        1 ≤ q.marks.length ∧ q.marks.length ≤ 8 ∧ 1 ≤ q.actions.length ∧ q.actions.length ≤ 6 ∧
        (∀ a ∈ q.actions, a.2 = 0 ∨ a.2 = 1) ∧ (∀ m ∈ q.marks, m ≤ q.length) ∧
        (∀ a ∈ q.actions, a.1 ≤ q.length) ∧
        (∀ i x y, q.marks[i]? = some x → q.marks[i + 1]? = some y → x + 500 ≤ y) ∧
        (∀ i x y, q.actions[i]? = some x → q.actions[i + 1]? = some y →
          x.1 + s.params.value .minimumCutSpacing ≤ y.1) ∧
        (∀ m a, q.marks.head? = some m → q.actions.head? = some a → m < a.1) ∧
        (q.indication = 0 ∧ q.reprintTag = 0 ∨ q.indication = 1)) ∧
      (∀ x ∈ s.plans .l1, x.tag ≠ q.tag) ∧ 0 < s.freePlans ∧
      (opened .jp noticed).receiving .jp = true ∧ (∃ x ∈ (opened .jp noticed).plans .l1, x.tag = q.tag) ∧
      full.receiving .jp = true ∧ full.freePlans = 0 ∧ (∀ x ∈ full.plans .l1, x.tag ≠ q.tag) ∧
      (planOf 302 500 2499).actions[0]? = some (500, 0) ∧
      (planOf 302 500 2499).actions[1]? = some (2499, 1) ∧
      ¬500 + s.params.value .minimumCutSpacing ≤ 2499 := by
  refine ⟨by decide, by decide +kernel, by decide, ⟨by decide, by decide, by decide, by decide, by decide,
    by decide, by decide, by decide, by decide, by decide, ?_, ?_, ?_, by decide⟩, by decide, by decide,
    by decide, by decide, by decide, by decide +kernel, by decide, by decide, by decide, by decide⟩
  · intro i x y h g
    rcases i with _ | _ | _ | i <;> simp [planOf] at h g <;> omega
  · intro i x y h g
    rcases i with _ | _ | _ | i <;> simp [planOf] at h g
    · subst h g; decide
    · subst h g; decide
  · intro m a h g
    simp [planOf] at h g
    subst h g; decide

theorem witness_PlanWithdrawRemovesThePlan :
    let a := (planOf 302 500 12500).plan
    let b := (planOf 303 500 12500).plan
    let s := opened .jp noticed
    let held := opened .jp (State.reset.setSeq .l1 [{ panelAt 5 .loop 100 900 [] with lane := .l1 }])
    s.receiving .jp = true ∧ 3 < (4 : Byte).toNat ∧ (1 : Byte).toNat = laneNumber .l1 ∧
      s.plans .l1 = [a] ++ b :: [] ∧ b.tag = 303 ∧ (∀ y ∈ [a], y.tag ≠ 303) ∧
      held.receiving .jp = true ∧ (∀ y ∈ held.plans .l1, y.tag ≠ 7) ∧ (∃ q ∈ held.residentsOf .l1, q.tag = 7) ∧
      (∀ q ∈ held.residentsOf .l1, q.tag ≠ 8) := by
  decide

/-- The checks of a notice, each at its limit: lane 4, a lane that is not present, quality 2, OFFLINE, a worn
knife, no free record, a coordinate one ahead of P_now and one at P_now, no plan, and an overlap by one. -/
theorem witness_PrintNoticeIsChecked :
    let s := opened .pp noticed
    let absent := s.setPif { s.pif with params := { s.params with
      g0 := { s.params.g0 with lanePresent := ⟨true, false, true, true⟩ } } }
    let full := s.setMap { s.map with waiting := List.replicate 96 (panelAt 5 .done 100 900 []) }
    let late := s.setSeq .l1 [{ panelAt 5 .loop 100 900 [] with lane := .l1, wLead := 395001 }]
    s.receiving .pp = true ∧ 3 < (4 : Byte).toNat ∧ absent.receiving .pp = true ∧
      (1 : Byte).toNat = laneNumber .l1 ∧ absent.params.isPresent .l1 = false ∧ 1 < (2 : Byte).toNat ∧
      (rx .pp).receiving .pp = true ∧ (rx .pp).params.isPresent .l1 = true ∧ (1 : Byte).toNat ≤ 1 ∧
      (rx .pp).lnc.line ≠ .ready ∧ (rx .pp).lnc.line ≠ .run ∧
      (s.lnc.line = .run ∧ s.params.isPresent .l1 = true) ∧
      ((s.setKnife .l1 { s.knife .l1 with preFail := true }).knife .l1).preFail = true ∧
      full.receiving .pp = true ∧ (full.knife .l1).preFail = false ∧ full.freePanels = 0 ∧
      (s.knife .l1).preFail = false ∧ 0 < s.freePanels ∧ 0 < (412001 : Word).diff s.mot.p ∧
      (412000 : Word).diff s.mot.p ≤ 0 ∧ (∀ x ∈ s.plans .l1, x.tag ≠ 304) ∧
      late.receiving .pp = true ∧ 0 < late.freePanels ∧ (∃ x ∈ late.plans .l1, x.tag = 303) ∧
      (∃ q ∈ late.residentsOf .l1, (400000 : Word).diff (q.wLead.plus q.length) < 0 ∧
        ∀ x ∈ late.residentsOf .l1, x ≠ q → 0 < q.wLead.diff x.wLead) := by
  decide +kernel

/-- The notice of 2.8 with tag 303, and one whose panel leads at the high-water. -/
theorem witness_PrintNoticeAdmitsAPanel :
    let a := (planOf 302 500 12500).plan
    let x := (planOf 303 500 12500).plan
    let s := opened .pp noticed
    (s.receiving .pp = true ∧ (1 : Byte).toNat = laneNumber .l1 ∧ s.params.isPresent .l1 = true ∧
      (1 : Byte).toNat ≤ 1 ∧ s.lnc.line = .run ∧ (s.knife .l1).preFail = false ∧ 0 < s.freePanels) ∧
      s.SerialsUnique ∧ (400000 : Word).diff s.mot.p ≤ 0 ∧ (391000 : Word).diff s.mot.p ≤ 0 ∧
      s.plans .l1 = [a] ++ x :: [] ∧ (∀ y ∈ [a], y.tag ≠ x.tag) ∧
      (∀ q ∈ s.residentsOf .l1, 0 ≤ (400000 : Word).diff (q.wLead.plus q.length)) ∧
      (s.lane .l1).state = .idle ∧
      0 < (predict (s.mot.p.shift (-(s.lpm.lp : Int))) s.mot.l 1000000 400000).diff s.mot.highWater ∧
      (predict (s.mot.p.shift (-(s.lpm.lp : Int))) s.mot.l 1000000 391000).diff s.mot.highWater ≤ 0 := by
  unfold State.SerialsUnique
  decide +kernel

/-- A panel that leads at or behind the high-water: of an IDLE lane, with its first action one count ahead, and of
one in TRACK, with it one count beyond the arming horizon. -/
theorem witness_PrintNoticeAdmitsAPanel_web :
    ∀ a ∈ [(384501, LaneState.idle), (388501, .track)],
      let x := (planOf 303 500 12500).plan
      let s := opened .pp (noticed.setLane .l1
        { noticed.lane .l1 with state := a.2, wref := 391000, lref := 388000 })
      let started : LaneRec := { s.lane .l1 with
        state := if a.2 = .idle then .acquire else a.2, g1 := s.params.g1 }
      let w : Word := BitVec.ofNat 32 a.1
      let web : Panel := { panelAt 1 .web 0 0 [] with
        lane := .l1, wLead := w, actions := x.actions.map fun b => ⟨b.1, b.2, .pending⟩ }
      let reach : Int := if started.state = .track ∨ started.state = .coast then 4000 else 0
      s.receiving .pp = true ∧ (s.lane .l1).state = a.2 ∧ w.diff s.mot.p ≤ 0 ∧ s.residents = [] ∧
        s.lpm.lp = 21000 ∧ s.mot.p = 412000 ∧ s.params.value .nominalScale = started.scale ∧
        (predict 391000 388000 started.scale w).diff s.mot.highWater ≤ 0 ∧
        s.map.outfeedFull = decide (24 ≤ s.map.outfeed.length) ∧
        (∀ y ∈ s.seq .l1 ++ [web], y.onWeb = true ∧ ∀ b ∈ y.actions, b.status = .pending ∧
          reach < (s.fireOn .l1 started y b).diff s.mot.highWater) ∧
        (web.actions.map fun b => (s.fireOn .l1 started web b).diff s.mot.highWater).head? =
          some (reach + 1) := by
  decide +kernel

/-- The same notices with no mark expected. -/
theorem witness_PrintNoticeAdmitsAPanel_observed :
    ∀ x ∈ [LaneState.acquire, .track], ∀ s ∈ [opened .pp noticed,
        opened .pp (noticed.setLane .l1 { noticed.lane .l1 with state := x, wref := 391000, lref := 388000 })],
      s.ExpectedFollows ∧ s.ExpiryAhead .l1 := by
  intro x hx s hs
  have h : ∀ x ∈ [LaneState.acquire, .track], ∀ s ∈ [opened .pp noticed, opened .pp (noticed.setLane .l1
      { noticed.lane .l1 with state := x, wref := 391000, lref := 388000 })],
      ∀ k ∈ [Lane.l0, .l1, .l2, .l3], (s.lane k).expected = none ∧ s.seq k = [] := by decide
  have g := h x hx s hs
  refine ⟨fun k => ?_, fun y hy => ?_⟩
  · obtain ⟨a, b⟩ := g k (by cases k <;> decide)
    simp [a, b, marksOnWeb]
  · rw [(g .l1 (by decide)).1] at hy
    cases hy

/-! #### Splices and the brake -/

/-- A line in RUN at a count, and so many splices that lie ahead. -/
def running (n splices : Nat) : State :=
  let s := atLine n (inState .run State.reset)
  s.setTen { s.ten with
    splices := List.replicate splices (s.params.spliceAt .web (BitVec.ofNat 32 (n + 100)) false) }

theorem reset_largestKnife (n m : Nat) (p : Port) : (opened p (running n m)).LargestKnife 6000 :=
  .inl ⟨⟨.l0, rfl, rfl⟩, fun k _ => by cases k <;> exact Nat.le_refl 6000⟩

/-- A splice list of three, of four, a FILM BREAK still due, a record that retires within its entry, and the
lane of 4.13, whose panel lies on the splice. -/
theorem witness_FilmSpliceEntersARecord :
    let s := opened .fp (running 288000 3)
    let due := s.setTen { s.ten with breakWatch := .due }
    let back := (opened .fp (running 300000 0)).setMot { s.mot with l := 293500, highWater := 300000 }
    let hit := opened .fp tracked
    (s.receiving .fp = true ∧ s.ten.splices.length < 4 ∧ s.SerialsUnique ∧ s.ten.breakWatch ≠ .due) ∧
      (s.ten.splices ≠ [] ∧ (opened .fp (running 288000 0)).ten.splices = []) ∧ s.LargestKnife 6000 ∧
      (opened .fp (running 288000 4)).receiving .fp = true ∧
      4 ≤ (opened .fp (running 288000 4)).ten.splices.length ∧
      (due.receiving .fp = true ∧ due.ten.splices.length < 4 ∧ due.ten.breakWatch = .due ∧
        ∃ u, exec .filmBreak due = .next u) ∧
      (back.receiving .fp = true ∧ ((293500 : Word).plus 6500).diff back.mot.highWater ≤ 0) ∧
      (hit.receiving .fp = true ∧ hit.SerialsUnique ∧ hit.ten.breakWatch ≠ .due ∧ hit.SettleHolds ∧
        (∀ k, hit.QuietLane k) ∧ hit.spliceHits (hit.mot.l.shift (-500)) (hit.mot.l.plus 500) ≠ []) :=
  ⟨by unfold State.SerialsUnique; decide, by decide, reset_largestKnife _ _ _,
    by decide, by decide, ⟨by decide, by decide, by decide, _, rfl⟩, by decide,
    by decide, by unfold State.SerialsUnique; decide, by decide, tracked_settleHolds _,
    fun k => by cases k <;> (unfold State.QuietLane; decide), by decide⟩

/-- The print reading of 7.9 before a notice of a WEB splice. -/
def spliceNoticed (n : Nat) : State := opened .pp (atPrint 250000 (running 180000 n))

theorem spliceNoticed_knife (n : Nat) : (spliceNoticed n).LargestKnife 6000 :=
  .inl ⟨⟨.l0, rfl, rfl⟩, fun k _ => by cases k <;> exact Nat.le_refl 6000⟩

/-- With every lane IDLE the loop reference predicts, and with lane 2 in TRACK its reference: nips 180,000, at
the high-water, 180,001, and 173,499 and 173,500, which retire before and after it. -/
theorem witness_WebSpliceEntersARecord :
    let s := spliceNoticed 3
    let t := s.setLane .l2 { s.lane .l2 with state := .track, wref := 1000, lref := 500 }
    (s.receiving .pp = true ∧ 0 < (250001 : Word).diff s.mot.p ∧ (250000 : Word).diff s.mot.p ≤ 0 ∧
      4 ≤ (spliceNoticed 4).ten.splices.length ∧ (spliceNoticed 4).receiving .pp = true ∧
      s.ten.splices.length < 4 ∧ s.SerialsUnique) ∧
      (s.ten.splices ≠ [] ∧ (spliceNoticed 0).ten.splices = []) ∧ s.LargestKnife 6000 ∧
      s.WebNip 229000 180000 ∧ s.WebNip 229001 180001 ∧ s.WebNip 222500 173500 ∧ s.WebNip 222501 173501 ∧
      (180000 : Word).diff s.mot.highWater ≤ 0 ∧ 0 < (180001 : Word).diff s.mot.highWater ∧
      ((173500 : Word).plus 6500).diff s.mot.highWater ≤ 0 ∧
      0 < ((173501 : Word).plus 6500).diff s.mot.highWater ∧ t.WebNip 1100 600 := by
  have idle : ∀ w nip, nip = predict ((spliceNoticed 3).mot.p.shift (-((spliceNoticed 3).lpm.lp : Int)))
      (spliceNoticed 3).mot.l (spliceNoticed 3).params.g1.nominalScale w →
      (spliceNoticed 3).WebNip w nip := fun w nip h =>
    .inr ⟨fun k => by rintro ⟨_, g⟩; exact g (by cases k <;> rfl), h⟩
  refine ⟨by unfold State.SerialsUnique; decide, by decide, spliceNoticed_knife 3,
    idle _ _ (by decide), idle _ _ (by decide), idle _ _ (by decide), idle _ _ (by decide), by decide,
    by decide, by decide, by decide, .inl ⟨.l2, ⟨.inr (by decide), by decide⟩, fun j h => ?_, by decide⟩⟩
  rintro ⟨_, g⟩
  cases j
  · exact g rfl
  · exact g rfl
  · exact absurd h (by decide)
  · exact absurd h (by decide)

/-- Lane 1 of 4.13 predicts its mark at 128,660, passed with the signal, and 135,000 at 133,460, ahead and
without one behind another splice; the panel there lies on both. -/
theorem witness_WebSpliceEntersARecord_exact :
    let s := opened .pp (atPrint 140000 tracked)
    let t := s.setTen { s.ten with profile := .splice, splices := [s.params.spliceAt .web 140000 false] }
    (s.receiving .pp = true ∧ (130200 : Word).diff s.mot.p ≤ 0 ∧ (135000 : Word).diff s.mot.p ≤ 0 ∧
      s.SerialsUnique ∧ s.WebNip 130200 128660 ∧ t.WebNip 135000 133460) ∧
      ((128660 : Word).diff s.mot.highWater ≤ 0 ∧ 0 < ((128660 : Word).plus 6500).diff s.mot.highWater ∧
        s.SettleHolds ∧ (∀ k, s.QuietLane k) ∧
        s.spliceHits ((128660 : Word).shift (-500)) ((128660 : Word).plus 500) ≠ []) ∧
      t.ten.splices ≠ [] ∧ 0 < (133460 : Word).diff t.mot.highWater ∧ (∀ k, t.QuietLane k) ∧
      t.spliceHits ((133460 : Word).shift (-500)) ((133460 : Word).plus 500) ≠ [] := by
  have nip : ∀ (u : State) (w n : Word), u.reg = tracked.reg → u.pif = (opened .pp tracked).pif →
      n = predict 120000 118460 1000000 w → u.WebNip w n := by
    intro u w n h1 h2 h3
    have hl : ∀ k, u.lane k = tracked.lane k := fun k => by unfold State.lane; rw [h1]
    have hp : u.params = tracked.params := by unfold State.params; rw [h2]; rfl
    refine .inl ⟨.l1, ⟨.inr (by rw [hp]; decide), by rw [hl]; decide⟩, fun j h => ?_, ?_⟩
    · rintro ⟨_, g⟩
      rw [hl] at g
      cases j
      · exact g rfl
      · exact absurd h (by decide)
      · exact absurd h (by decide)
      · exact absurd h (by decide)
    · rw [hl, h3]; rfl
  refine ⟨⟨by decide, by decide, by decide, by unfold State.SerialsUnique; decide,
    nip _ _ _ rfl rfl (by decide), nip _ _ _ rfl rfl (by decide)⟩,
    ⟨by decide, by decide, fun k x h => tracked_settleHolds .pp k x h,
      fun k => by cases k <;> (unfold State.QuietLane; decide), by decide⟩, by decide, by decide,
    fun k => by cases k <;> (unfold State.QuietLane; decide), by decide⟩

/-- A splice at 1,000 that passes at 1,000 and retires at 7,500, with another behind it or without. -/
theorem witness_SplicesPassAndRetire :
    let x := State.reset.params.spliceAt .web 1000 false
    let y := State.reset.params.spliceAt .web 2000 false
    let s := atLine 1000 spliced
    let two := s.setTen { s.ten with splices := [x, y] }
    let far := atLine 7500 two
    let again := s.setTen { s.ten with splices := [{ x with passed := true }] }
    (two.ten.splices = [] ++ x :: [y] ∧ x.passage = .ahead ∧ x.nip.diff two.mot.highWater ≤ 0) ∧
      (again.ten.splices = [] ++ { x with passed := true } :: [] ∧
        ({ x with passed := true } : Splice).passage = .ahead) ∧
      (∀ z ∈ (atLine 999 spliced).ten.splices,
        z.passage = .ahead → 0 < z.nip.diff (atLine 999 spliced).mot.highWater) ∧
      (∀ k ∈ [Lane.l0, .l1, .l2, .l3], ∀ u ∈ [two, atLine 7500 spliced], (u.settledLane k).expected = none) ∧
      (far.ten.splices = [] ++ x :: [y] ∧ x.retire.diff far.mot.highWater ≤ 0) ∧
      ((atLine 7500 spliced).ten.splices = [] ++ x :: [] ∧
        x.retire.diff (atLine 7500 spliced).mot.highWater ≤ 0) ∧
      ∀ z ∈ (atLine 7499 spliced).ten.splices, 0 < z.retire.diff (atLine 7499 spliced).mot.highWater := by
  decide

theorem witness_IndexPulsesMeasureTheRoll :
    let s := atLine 1000 (inState .run State.reset)
    let due (l : LineState) : State :=
      (inState l s).setTen { s.ten with indexDistance := 40001, breakWatch := .due }
    (s.setMot { s.mot with l := 999 }).mot.l ≠ (s.setMot { s.mot with l := 999 }).mot.highWater ∧
      (s.setMot { s.mot with direction := .reverse }).mot.direction = .reverse ∧
      s.mot.l = s.mot.highWater ∧ s.mot.direction = .forward ∧ s.ten.measured = false ∧
      (s.setTen { s.ten with measured := true, indexDistance := 2399 }).ten.measured = true ∧
      (∀ l, (due l).ten.breakWatch = .due ∧ (due l).lnc.line = l ∧ (due l).mot.l = (due l).mot.highWater ∧
        (due l).mot.direction = .forward ∧ ∃ u, exec .filmBreak (due l) = .next u) ∧
      s.ten.breakWatch ≠ .due ∧
      ((inState .halted s).lnc.line = .halted ∧ (inState .ready s).lnc.line = .ready ∧
        2399 < s.params.value .cCore ∧ ¬2400 < s.params.value .cCore ∧ s.ten.filmEnd = false) := by
  refine ⟨by decide, by decide, by decide, by decide, by decide, by decide, fun l => ?_, by decide, by decide⟩
  cases l <;> exact ⟨by decide, by decide, by decide, by decide, _, rfl⟩

/-- 7.9: base 1,600 and C 2,997 over C_full 18,850 make 254; with C absent the base itself. -/
theorem witness_DutyIsComputedFromTheRoll :
    let s := State.reset.setTen { State.reset.ten with c := some 2997 }
    s.ten.profile ≠ .splice ∧ s.params.value .normalBase = 1600 ∧ s.ten.c = some 2997 ∧
      State.reset.ten.c = none ∧ s.params.value .cFull = 18850 ∧
      18850 * 254 ≤ 1600 * 2997 + 18850 / 2 ∧ 1600 * 2997 + 18850 / 2 < 18850 * (254 + 1) ∧
      18850 * 1600 ≤ 1600 * 18850 + 18850 / 2 ∧ 1600 * 18850 + 18850 / 2 < 18850 * (1600 + 1) := by
  decide

/-! #### Line requests -/

/-- The causes that stand, in the order of Table 8-3. -/
def causesOf (s : State) : List LineCause :=
  [LineCause.reverseLimit, .loopSensor, .loopLow, .filmBreak, .filmEnd].filter s.standing

/-- A line in a state with every cause standing but two. -/
def troubled (l : LineState) : State :=
  let s := inState l State.reset
  (s.setLpm { s.lpm with stale := true, lowStop := true }).setTen { s.ten with filmEnd := true }

/-- A line with all five causes standing, and one panel. -/
def beset (l : LineState) : State :=
  let s := troubled l
  ((s.setTen { s.ten with indexDistance := 40001 }).setMot { s.mot with highWater := 2001 }).setSeq .l0
    [panelAt 5 .loop 100 900 []]

/-- A halt whose record holds four causes, with a fifth on its own. -/
theorem witness_LineRequestsMoveTheState_five :
    ∀ p l, (opened p (beset l)).receiving p = true ∧ (opened p (beset l)).lnc.line = l ∧
      (opened p (beset l)).inLine ≠ [] ∧ causesOf (opened p (beset l)) =
        .reverseLimit :: [.loopSensor, .loopLow, .filmBreak, .filmEnd] := by
  intro p l
  cases p <;> cases l <;> decide

theorem witness_LineRequestsMoveTheState :
    (∀ p l, (opened p (inState l State.reset)).receiving p = true ∧
      (opened p (inState l State.reset)).lnc.line = l ∧ causesOf (opened p (inState l State.reset)) = [] ∧
      causesOf (opened p (troubled l)) = .loopSensor :: [.loopLow, .filmEnd] ∧
      (opened p (troubled l)).lnc.line = l ∧ (opened p (troubled l)).receiving p = true) ∧
      (rx .fp).lnc.line = .offline ∧ (rx .fp).lnc.configValid = true ∧
      (opened .jp (inState .run State.reset)).inLine = [] ∧
      (opened .jp ((troubled .run).setSeq .l0 [panelAt 5 .loop 100 900 []])).inLine ≠ [] ∧
      (opened .jp ((troubled .run).setSeq .l0 [panelAt 5 .loop 100 900 []])).lnc.line = .run ∧
      causesOf (opened .jp ((inState .run State.reset).setSeq .l0 [panelAt 5 .loop 100 900 []])) = [] := by
  refine ⟨fun p l => ?_, by decide⟩
  cases p <;> cases l <;> decide

/-- A knife 999 counts behind its sensor, and a sensor distance below its range. -/
theorem witness_ArmNamesTheFailingCheck :
    let with0 (g : G0) : State := opened .fp ((State.reset.setPif { State.reset.pif with
      params := { State.reset.params with g0 := g } }).setLnc
        { State.reset.lnc with configValid := false })
    let a := with0 { State.reset.params.g0 with sensorDistance := ⟨4000, 4000, 5001, 4000⟩ }
    let b := with0 { State.reset.params.g0 with sensorDistance := ⟨499, 4000, 4000, 4000⟩ }
    let near (s : State) (k : Lane) : Prop := s.params.isPresent k = true ∧
      s.params.value (.knifeDistance k) < s.params.value (.sensorDistance k) + 1000
    let bad (g i n : Nat) : Prop :=
      ∃ q, paramOf g i n = some q ∧ b.params.inRange q (b.params.value q) = false
    (a.receiving .fp = true ∧ a.lnc.line = .offline ∧ a.lnc.configValid = false) ∧ near a .l2 ∧
      (∀ j, laneNumber j < laneNumber .l2 → ¬near a j) ∧
      (b.receiving .fp = true ∧ b.lnc.line = .offline ∧ b.lnc.configValid = false) ∧
      (∀ k, ¬near b k) ∧ bad 0 0 0 ∧
      ∀ g' i' n', g' < 0 ∨ g' = 0 ∧ (i' < 0 ∨ i' = 0 ∧ n' < 0) → ¬bad g' i' n' := by
  refine ⟨by decide, by decide, fun j => ?_, by decide, fun k => ?_,
    ⟨.sensorDistance .l0, by decide, by decide⟩, fun g' i' n' h => absurd h (by omega)⟩
  · cases j <;> decide
  · cases k <;> decide

theorem witness_LineClearEndsTheRun :
    (∀ l, (opened .fp (inState l State.reset)).receiving .fp = true ∧
      (opened .fp (inState l State.reset)).lnc.line = l) := by
  intro l; cases l <;> decide

/-! #### Knives, outfeed, voids and lanes by request -/

theorem witness_KnifeRequestsFollowTheTable :
    (∀ (k : Lane) (home : Bool), ∀ x ∈ [KnifeState.ready, strokeAt .away, .fault, .disabled],
      let s := opened .fp (withKnife k x home State.reset)
      s.receiving .fp = true ∧ (s.knife k).state = x ∧ (s.knife k).home = home ∧
        ((s.setKnife k { s.knife k with disablePending := true }).knife k).disablePending = true) ∧
      (3 : Byte).toNat = laneNumber .l3 ∧ ([] : List Byte).length ≠ 1 ∧
      3 < (([4] : List Byte).headD 0).toNat := by
  refine ⟨fun k home => ?_, by decide⟩
  cases k <;> cases home <;> decide

/-- Loads at the limits of the range: 100,000 is loaded, 100,001 refused. -/
theorem witness_AttributesAreReadResetAndLoaded :
    (rx .jp).receiving .jp = true ∧ (3 : Byte).toNat = laneNumber .l3 ∧ 100000 < 100001 ∧ 100001 < 16777216 ∧
      16777215 < 16777216 ∧ (opened .jp (inState .ready State.reset)).lnc.line ≠ .offline ∧
      (rx .jp).lnc.line = .offline ∧
      ((opened .jp (withKnife .l3 (strokeAt .away) false State.reset)).knife .l3).state = strokeAt .away ∧
      ((rx .jp).knife .l3).state = .ready := by
  decide

/-- The outfeed list at 24 records of lane 0, with one of lane 1 waiting and with none. -/
def outfeedOf (waiting : List Panel) : State :=
  opened .fp (State.reset.setMap { State.reset.map with
    outfeed := (List.range 24).map fun n => panelAt (BitVec.ofNat 16 n) .done 100 900 []
    waiting := waiting, outfeedFull := true })

theorem witness_OutfeedTakeFreesTheOldest :
    let w := { panelAt 40 .done 100 900 [] with lane := .l1 }
    let rest := (List.range 23).map fun n => panelAt (BitVec.ofNat 16 (n + 1)) .done 100 900 []
    (∀ ws ∈ [[], [w]], (outfeedOf ws).receiving .fp = true ∧
      (outfeedOf ws).map.outfeed = [] ++ panelAt 0 .done 100 900 [] :: rest) ∧
      (panelAt 0 .done 100 900 []).lane = .l0 ∧ (outfeedOf [w]).PoolsFit ∧ (outfeedOf []).PoolsFit ∧
      (outfeedOf [w]).OutfeedFlagFollows ∧ (outfeedOf []).map.outfeedFull = true ∧
      (∀ x ∈ (outfeedOf []).map.outfeed, x.lane ≠ .l2) ∧ (2 : Byte).toNat = laneNumber .l2 ∧
      3 < (([4] : List Byte).headD 0).toNat := by
  unfold State.PoolsFit State.OutfeedFlagFollows
  decide +kernel

/-- A serial that no panel holds, one of a DONE panel, and one of a panel with a PERF to drop. -/
theorem witness_PanelVoidMarksThePanel :
    let perf : ActionEntry := ⟨4000, .perf, .pending⟩
    let q := panelAt 5 .loop 100 900 [perf]
    let s := opened .jp (State.reset.setSeq .l0 [q])
    let d := opened .jp outfed
    (s.receiving .jp = true ∧ (∀ x ∈ s.residents, x.serial ≠ 6) ∧ d.receiving .jp = true ∧
      (∀ x ∈ d.inLine, x.serial ≠ 5) ∧ (∃ x ∈ d.map.waiting ++ d.map.outfeed, x.serial = 5) ∧
      s.SerialsUnique ∧ q ∈ s.seq .l0 ∧ q.serial = 5 ∧ s.reached q.tailEvent = false) ∧
      (∀ a ∈ q.actions, a.kind = .perf → ∀ f, a.status ≠ .armed f) ∧
      ∀ e ∈ s.csc.fireList, e.lane = .l0 → e.serial = 5 → e.kind = .perf → e.committed = true := by
  refine ⟨by unfold State.SerialsUnique; decide, ?_, by decide⟩
  intro a h _ f
  simp only [panelAt, List.mem_singleton] at h
  subst h
  simp

theorem witness_LaneReacquireStartsAfresh :
    ∀ p x, (opened p (State.reset.setLane .l3 { State.reset.lane .l3 with state := x })).receiving p = true ∧
      ((opened p (State.reset.setLane .l3 { State.reset.lane .l3 with state := x })).lane .l3).state = x ∧
      (3 : Byte).toNat = laneNumber .l3 := by
  intro p x; cases p <;> cases x <;> decide

/-! #### Motion and the loop -/

/-- A line encoder at (0, 0) with these readings. -/
def lineAt (l : LineState) (n highWater : Nat) : State :=
  let s := inState l State.reset
  s.setMot { s.mot with l := BitVec.ofNat 32 n, highWater := BitVec.ofNat 32 highWater }

theorem witness_EncoderSamplesMoveTheReadings :
    let old : Phase := ⟨false, false⟩
    let s := lineAt .run 198000 200000
    let t := lineAt .ready 1 16777216
    (s.mot.printPhase = old ∧ s.mot.linePhase = old) ∧ PhaseLeads old ⟨true, false⟩ ∧
      PhaseLeads ⟨false, true⟩ old ∧ (true ≠ old.a ∧ true ≠ old.b) ∧
      (∀ d, s.isDue d = false) ∧ (∀ d, t.isDue d = false) ∧ (s.mot.l + 1).diff s.mot.highWater ≤ 0 ∧
      0 < ((lineAt .run 200000 200000).mot.l + 1).diff (lineAt .run 200000 200000).mot.highWater ∧
      (∀ d, (lineAt .run 200000 200000).isDue d = false) ∧
      (∀ k, (lineAt .run 200000 200000).pendingActions k = []) ∧
      s.BackOffHeld ∧ s.lnc.line.running = true ∧ s.backOff = s.params.value .reverseLimit ∧
      s.backOff < 16777215 ∧ t.BackOffHeld ∧ t.lnc.line.running = false ∧ t.backOff = 16777215 := by
  refine ⟨by decide, by unfold PhaseLeads; decide, by unfold PhaseLeads; decide, by decide, fun d => ?_,
    fun d => ?_, by decide, by decide, fun d => ?_, fun k => ?_, by unfold State.BackOffHeld; decide,
    by decide, by decide, by decide, by unfold State.BackOffHeld; decide, by decide, by decide⟩
  · rcases d with k | k | k | k | k | k | k | _ | _ | _ <;> (try cases k) <;> decide
  · rcases d with k | k | k | k | k | k | k | _ | _ | _ <;> (try cases k) <;> decide
  · rcases d with k | k | k | k | k | k | k | _ | _ | _ <;> (try cases k) <;> decide
  · cases k <;> decide

/-- A passage delivered at the reading that a reverse edge makes the high-water leave. -/
theorem witness_EncoderSamplesMoveTheReadings_lowered :
    let y : Splice := { State.reset.params.spliceAt .web 16777216 true with passage := .delivered }
    let t := lineAt .ready 1 16777216
    let t := t.setTen { t.ten with profile := .splice, splices := [y] }
    t.NothingDue ∧ t.BackOffHeld ∧ t.backOff = 16777215 ∧ t.lnc.line.running = false ∧
      y.nip = t.mot.highWater := by
  refine ⟨fun d => ?_, by unfold State.BackOffHeld; decide, by decide, by decide, by decide⟩
  rcases d with k | k | k | k | k | k | k | _ | _ | _ <;> (try cases k) <;> decide

/-- A staleness timer at 9 ms, and a stroke and a fire pulse one unit short of their ends. -/
theorem witness_TimebaseTickTakesTheSpeed :
    let s := inState .run State.reset
    let s := (s.setLpm { s.lpm with sinceSampleMs := 9 }).setKnife .l1 { s.knife .l1 with
      fire := true, firePulseMs := 1
      state := .stroke { phase := .away, timer := 24999, timeoutMs := 250, kind := .cut, serial := 5, index := 0 } }
    s.NoTimerDue ∧ s.mot.history = 0 :: 0 :: List.replicate 7 0 := by
  refine ⟨⟨by decide, fun k => ⟨?_, fun r h => ?_⟩⟩, by decide⟩
  · cases k <;> decide
  · cases k <;> injection h
    subst_vars
    decide

/-- Samples 102 and 103 lie on the two sides of the low stop of 2,000: Lp 1,996 and 2,006. -/
theorem witness_LoopSamplesSetTheLimits :
    State.reset.params.value .loopOffset + (State.reset.params.value .loopGain * 102 + 2048) / 4096 = 1996 ∧
      State.reset.params.value .loopOffset + (State.reset.params.value .loopGain * 103 + 2048) / 4096 = 2006 ∧
      State.reset.params.value .lowStop = 2000 ∧
      (∀ l, (inState l State.reset).lpm.lowStop = false ∧ (inState l State.reset).lnc.line = l ∧
        (inState l State.reset).lpm.stale = false) ∧
      (troubled .run).lpm.lowStop = true ∧ State.reset.lpm.stale = true := by
  refine ⟨by decide, by decide, by decide, fun l => ?_, by decide, by decide⟩
  cases l <;> decide

/-- Sample 3,800 has seven ones: FBh and 18h carry it, BBh and 18h carry it with wrong parity. -/
theorem witness_CharactersCarryOneSample :
    let n : BitVec 12 := 3800
    let ones := ((List.range 12).filter fun i => n.getLsbD i).length
    let holding (c : Byte) : State := State.reset.setLpm { State.reset.lpm with rxOpen := some c }
    (0x80 : Byte).getLsbD 7 = true ∧ (0x7F : Byte).getLsbD 7 = false ∧ (0x7F : Byte).getLsbD 6 = true ∧
      State.reset.lpm.rxOpen = none ∧
      (holding 0xFB).lpm.rxOpen = some (byteOf (128 + 64 * (ones % 2) + n.toNat / 64)) ∧
      (holding 0xBB).lpm.rxOpen = some (byteOf (128 + 64 * ((ones + 1) % 2) + n.toNat / 64)) := by
  decide

/-! #### Lanes -/

/-- The lane of 4.13 with its line reading at a count. -/
def trackedAt (n : Nat) (f : LaneRec → LaneRec) : State :=
  let s := atLine n tracked
  s.setLane .l1 (f (s.lane .l1))

/-- The expected mark of `tracked`, and its panel. -/
def mark5 : Expected := { serial := 5, index := 0, w := 130200, pred := 128660, expiry := 132691 }
def panel5 : Panel := { panelAt 5 .web 100 900000 [] with lane := .l1, wLead := 129700 }

/-- Edges at −30 and +30 are in the window and at −31 is stray; strays 15, 16 with 7 RECOVERY reports counted
and 16 with 6; a lane that is not present; the three states that have a window. -/
theorem witness_MarkEdgesAreJudged :
    let obs (n : Nat) := (trackedAt n id).mot.l.shift (-4000)
    let stray (n : Nat) (m : Nat) := trackedAt 132629 fun r =>
      { r with strayCount := BitVec.ofNat 16 n, recovery := m }
    let gone := State.reset.setPif { State.reset.pif with params := { State.reset.params with
      g0 := { State.reset.params.g0 with lanePresent := ⟨true, false, true, true⟩ } } }
    gone.params.isPresent .l1 = false ∧
      (∀ n ∈ [132629, 132630, 132672, 132690], let s := trackedAt n id
        s.params.isPresent .l1 = true ∧ s.mot.direction = .forward ∧ s.mot.l = s.mot.highWater ∧
        (s.lane .l1).expected = some mark5 ∧
        mark5.expiry = mark5.pred.plus ((s.lane .l1).window + 1 + s.params.value (.sensorDistance .l1)) ∧
        s.params.g1 = (s.lane .l1).g1 ∧ (s.lane .l1).window = 30 ∧ panel5 ∈ s.seq .l1 ∧
        panel5.serial = mark5.serial ∧ s.map.outfeedFull = decide (24 ≤ s.map.outfeed.length) ∧
        (s.residents.map (·.serial)).Nodup) ∧
      (30 : Int) < |(obs 132629).diff mark5.pred| ∧ |(obs 132630).diff mark5.pred| ≤ 30 ∧
      |(obs 132672).diff mark5.pred| ≤ 30 ∧ |(obs 132690).diff mark5.pred| ≤ 30 ∧
      (((stray 14 0).lane .l1).strayCount + 1).toNat % 16 ≠ 0 ∧
      (((stray 15 6).lane .l1).strayCount + 1).toNat % 16 = 0 ∧
      ((stray 15 6).lane .l1).recovery + 1 < ((stray 15 6).lane .l1).g1.degradationThreshold ∧
      ((stray 15 7).lane .l1).g1.degradationThreshold ≤ ((stray 15 7).lane .l1).recovery + 1 ∧
      (((trackedAt 132672 id).lane .l1).g1.minimumSpan : Int) ≤
        mark5.w.diff ((trackedAt 132672 id).lane .l1).wref ∧
      ((obs 132672).diff ((trackedAt 132672 id).lane .l1).lref).toNat * 1000000 < 281474976710656 ∧
      (∀ x ∈ [LaneState.acquire, .track, .coast], ({ tracked.lane .l1 with state := x } : LaneRec).state = x) := by
  decide +kernel

/-- R68, R78: after mark A of 4.13 a mark at 133,700 is expected at 128,672 + 3,500 × 1.000294 = 132,173, until the
reading 132,173 + 31 + 4,000. -/
theorem test_markEdge_next :
    let s := tracked.setSeq .l1 [{ panel5 with marks := [⟨500, .pending⟩, ⟨4000, .pending⟩] }]
    ((after (.markEdge .l1) s).lane .l1).expected =
      some { serial := 5, index := 1, w := 133700, pred := 132173, expiry := 136204 } := by
  decide +kernel

/-- R78, R89: the acceptance that leaves COAST is the eighth RECOVERY report of the lane, so that its MARK REACQUIRED
is followed by LANE RECOVERY RATE, and the counter returns to 0. -/
theorem test_markEdge_rate :
    let t := after (.markEdge .l1) (trackedAt 132672 fun r =>
      { r with state := .coast, missCount := 2, recovery := 7 })
    t.cnd.queue.map (fun r => (r.cause, r.detail)) =
        [(.recovery .markReacquired, 2), (.degradation .laneRecoveryRate, 8)] ∧
      (t.lane .l1).recovery = 0 := by
  decide +kernel

/-- The panel of `tracked` with actions at these offsets: on the reference (130,200, 128,672) and the scale
1,000,294 of mark A those at 400, 500, 4,000 and 4,500 have their fire positions at 134,572, 134,672, 138,173 and
138,673, less the held lead. -/
def handing (l : LineState) (x : KnifeState) (as : List (Nat × ActionStatus)) (es : List FireEntry) : State :=
  let s := withKnife .l1 x true (inState l tracked)
  (s.setSeq .l1 [{ panelAt 5 .web 100 900000 (as.map fun a => ⟨a.1, .cut, a.2⟩) with
    lane := .l1, wLead := 129700 }]).setCsc { fireList := es, armings := 2 }

/-- An entry of lane 1 for an action of panel 5. -/
def handed (i f lead : Nat) (committed : Bool) (deadline : Option Word) : FireEntry :=
  { lane := .l1, serial := 5, index := i, kind := .cut, f := BitVec.ofNat 32 f, heldLead := lead,
    committed := committed, deadline := deadline, order := i }

/-- At mark A: a COMMITTED entry that strays by 173 and an ARMED one that moves ahead; and an ARMED one whose fire
event comes to lie at the high-water or 100 counts behind it, with its deadline ahead or behind, in each line state
and knife state, behind an entry that waits or not. -/
theorem witness_MarkEdgesAreJudged_handOn :
    let ahead (s : State) (e : FireEntry) : Int :=
      (s.newFire .l1 ((after (.markEdge .l1) s).lane .l1) e).diff s.mot.highWater
    (let old := handed 0 138000 0 true none
     let e := handed 1 138600 0 false none
     let s := handing .run .ready [(4000, .committed 138000), (4500, .armed 138600)] [old, e]
     let new := (after (.markEdge .l1) s).lane .l1
     s.EntriesMatch ∧ s.OrdersDistinct ∧
     s.pendingActions .l1 = [] ∧ 0 < ahead s e ∧ s.deviation .l1 new old = 173 ∧ s.FireListOrdered ∧
     ∀ y ∈ s.seq .l1, y.state = .web ∧ y.onWeb = true ∧
       0 < (s.revisedPanel .l1 new y).tailEvent.diff s.mot.highWater) ∧
      ∀ a ∈ [(500, 0, true), (500, 0, false), (400, -100, true)],
        ∀ y ∈ [(LineState.offline, KnifeState.ready), (.ready, .fault), (.halted, .ready), (.run, .fault),
          (.run, .disabled), (.drain, .ready), (.run, strokeAt .away)],
        let l := y.1
        let x := y.2
        let e := handed 1 133100 2000 false none
        let waiting := handed 0 132660 0 true (some 132681)
        let s := handing l x [(300, .committed 132660), (a.1, .armed 133100)]
          (if a.2.2 then [e] else [waiting, e])
        s.EntriesMatch ∧
        e ∈ s.csc.fireList ∧ s.lnc.line = l ∧ (s.knife .l1).state = x ∧
        ahead s e = a.2.1 ∧
        decide (0 < ((s.newFire .l1 ((after (.markEdge .l1) s).lane .l1) e).plus
          (s.params.value .cutTolerance + 1)).diff s.mot.highWater) = decide (a.1 = 500) := by
  unfold State.FireListOrdered InFireOrder State.EntriesMatch State.OrdersDistinct
  decide +kernel

/-- Lane 1 of 4.13 with a track window of 29 in the copy and one of 30 in G1, at an edge: the load moves the expiry
one count; and one of 10 in G1 at 132,672, where the load puts the expiry at 132,671, which is taken. -/
theorem witness_MarkEdgesAreJudged_moved :
    ∀ a ∈ [(29, 30, 132690, true), (30, 10, 132672, false)],
      let s := trackedAt 132672 fun r => { r with
        g1 := { r.g1 with trackWindow := a.1 }, expected := some { mark5 with expiry := BitVec.ofNat 32 (132661 + a.1) } }
      let s := s.setPif { s.pif with params := { s.params with g1 := { s.params.g1 with trackWindow := a.2.1 } } }
      let r : LaneRec := { s.lane .l1 with g1 := s.params.g1 }
      let expiry := mark5.pred.plus (r.window + 1 + s.params.value (.sensorDistance .l1))
      s.params.isPresent .l1 = true ∧ s.mot.direction = .forward ∧ s.mot.l = s.mot.highWater ∧
        expiry ≠ BitVec.ofNat 32 (132661 + a.1) ∧ decide (0 < expiry.diff s.mot.highWater) = a.2.2.2 := by
  decide +kernel

/-- Expiries at 132,691 and one count before; a lane at its coast limit, and one beyond its coast distance; the
end of settle. -/
theorem witness_ExpiriesAndSettleEndsMoveTheLane :
    let s := trackedAt 132691 id
    let limit := trackedAt 132691 fun r => { r with state := .coast, missCount := 2 }
    let far := trackedAt 132691 fun r => { r with state := .coast, missCount := 1, wref := 70199 }
    let settled := trackedAt 132671 fun r => { r with settling := true, expected := none }
    ((trackedAt 132690 id).lane .l1).expected = some mark5 ∧
      0 < mark5.expiry.diff (trackedAt 132690 id).mot.highWater ∧
      (∀ u ∈ [s, limit, far], (u.lane .l1).expected = some mark5 ∧
        mark5.expiry.diff u.mot.highWater ≤ 0 ∧ (u.residents.map (·.serial)).Nodup ∧ panel5 ∈ u.seq .l1 ∧
        panel5.serial = mark5.serial ∧ u.pendingActions .l1 = [] ∧ u.csc.fireList = []) ∧
      ((s.lane .l1).state = .track ∧ ¬s.params.g1.coastLimit ≤ 1) ∧
      ((limit.lane .l1).state = .coast ∧ limit.params.g1.coastLimit ≤ (limit.lane .l1).missCount + 1) ∧
      ((far.lane .l1).state = .coast ∧
        (far.params.g1.coastDistance : Int) < mark5.w.diff (far.lane .l1).wref) ∧
      (s.lane .l1).settling = false ∧
      ((settled.lane .l1).settling = true ∧ (settled.lane .l1).settleRemaining = 0 ∧
        (settled.lane .l1).expected = none) := by
  decide +kernel

/-- Lane 1 of 4.13 at its coast limit, with two ARMED actions of panel 5 and one of panel 6, which carries a void
cause, between them, and a COMMITTED one of lane 0. -/
def losing : State :=
  let s := trackedAt 132691 fun r => { r with state := .coast, missCount := 2 }
  let s := s.setSeq .l0 [panelAt 7 .web 100 900000 [cut (.committed 132900)]]
  (s.setSeq .l1
    [{ panel5 with actions := [⟨4000, .perf, .armed 138000⟩, ⟨4500, .cut, .armed 138500⟩] },
      { panel5 with serial := 6, voidCause := some .splice, actions := [cut (.armed 138000)] }]).setCsc
    { fireList := [entryOf 7 132900 true none, { handed 0 138000 0 false none with kind := .perf, order := 1 },
        { handed 0 138000 0 false none with serial := 6, order := 2 },
        { handed 1 138500 0 false none with order := 3 }]
      armings := 4 }

theorem witness_ExpiriesAndSettleEndsMoveTheLane_lost :
    (losing.lane .l1).expected = some mark5 ∧ mark5.expiry.diff losing.mot.highWater ≤ 0 ∧
      losing.SerialsUnique ∧ (losing.seq .l1).map (·.serial) = [mark5.serial, 6] ∧
      losing.params.g1.coastLimit ≤ (losing.lane .l1).missCount + 1 ∧ losing.EntriesMatch ∧
      losing.OutfeedFlagFollows ∧ losing.QuietLane .l1 ∧ (losing.armedOf .l1).length = 3 ∧
      (losing.disarmedList .l1).length = 1 := by
  unfold State.SerialsUnique State.EntriesMatch State.OutfeedFlagFollows State.QuietLane
  decide +kernel

/-- R85, R46, R47, R107: panel 5 is lost at its PERF, the first of its ARMED actions; panel 6 keeps its cause. -/
theorem test_windowExpiry_lost :
    let t := after (.windowExpiry .l1) losing
    t.cnd.queue.map (fun r => (r.cause, r.serial, r.detail, r.ancillary)) =
        [(.laneDamage .regLost, 5, 3, false), (.panelLoss .regLost, 5, 0, true)] ∧
      (t.seq .l1).map (fun q => (q.voidCause, q.actions.map (·.status))) =
        [(some .regLost, [.missed .regLost, .missed .regLost]),
          (some .splice, [.missed .regLost])] := by
  decide +kernel

/-- The end of settle at a mark 12 counts behind pred, and at 132,672 with a track window of 11: the expiry moves
from 132,781 to 132,691, and from 132,705 to 132,672, which is taken. -/
theorem witness_ExpiriesAndSettleEndsMoveTheLane_settled :
    ∀ a ∈ [(30, 132781, true), (11, 132705, false)],
      let s := trackedAt 132672 fun r => { r with
        settling := true, g1 := { r.g1 with trackWindow := a.1 }
        expected := some { mark5 with expiry := BitVec.ofNat 32 a.2.1 } }
      let r : LaneRec := { s.lane .l1 with settling := false }
      let expiry := mark5.pred.plus (r.window + 1 + s.params.value (.sensorDistance .l1))
      (s.lane .l1).settling = true ∧ (s.lane .l1).settleRemaining = 0 ∧
        expiry ≠ BitVec.ofNat 32 a.2.1 ∧ decide (0 < expiry.diff s.mot.highWater) = a.2.2 := by
  decide +kernel

/-- An expiry with a PENDING action of the lane: in ACQUIRE, where the lane is not scanned, and in TRACK. -/
theorem witness_ExpiriesAndSettleEndsMoveTheLane_pending :
    ∀ x ∈ [LaneState.acquire, .track],
      let s := (trackedAt 132691 fun r => { r with state := x }).setSeq .l1
        [{ panel5 with actions := [cut .pending] }]
      (s.lane .l1).expected = some mark5 ∧ mark5.expiry.diff s.mot.highWater ≤ 0 ∧
        (s.residents.map (·.serial)).Nodup ∧ (s.lane .l1).state = x ∧ s.pendingActions .l1 ≠ [] ∧
        ¬s.params.g1.coastLimit ≤ 1 ∧ (s.lane .l1).missCount = 0 := by
  decide +kernel

/-- Lane 0 in TRACK on the reference (0, 0) at 10,000 with these marks on panel 5, in LOOP or on the web. -/
def sensing (x : PanelState) (e : Option Expected) (ms : List (Nat × MarkStatus)) (as : List ActionEntry) : State :=
  let s := atLine 10000 (inState .run State.reset)
  (s.setLane .l0 { s.lane .l0 with state := .track, expected := e }).setSeq .l0
    [{ panelAt 5 x 100 900 as with marks := ms.map fun m => ⟨m.1, m.2⟩ },
      { panelAt 6 .web 200 900000 [cut .fired] with wLead := 8000, marks := [⟨500, .pending⟩] }]

/-- A lead event ahead of the expected mark of the panel behind, and a tail event of the panel in front, each with
that mark's window expiry at 12,531. -/
theorem witness_LeadAndTailEventsMoveThePanel_observed :
    let e : Expected := { serial := 6, index := 0, w := 8500, pred := 8500, expiry := 12531 }
    ∀ s ∈ [sensing .loop (some e) [(500, .pending)] [cut .pending],
        sensing .web (some e) [(500, .accepted 3)] [cut .fired]],
      s.SerialsUnique ∧ s.ExpectedFollows ∧ s.ExpiryAhead .l0 ∧ (s.lane .l0).expected = some e := by
  intro e s h
  have h1 : ∀ s ∈ [sensing .loop (some e) [(500, .pending)] [cut .pending],
      sensing .web (some e) [(500, .accepted 3)] [cut .fired]],
      (s.residents.map (·.serial)).Nodup ∧ (s.lane .l0).expected = some e ∧
        e.expiry = e.pred.plus ((s.lane .l0).window + 1 + s.params.value (.sensorDistance .l0)) ∧
        0 < e.expiry.diff s.mot.highWater := by decide +kernel
  obtain ⟨a, b, c, d⟩ := h1 s h
  refine ⟨a, fun k => ?_, fun x hx => ?_, b⟩
  · fin_cases h <;> cases k <;> decide +kernel
  · rw [b] at hx
    cases hx
    exact ⟨c, d⟩

/-- R68, R69: at a lead event the mark at 1,500 with its expiry at 5,531 passes unobserved, and the one at 10,500 is
expected at 10,500 until 14,531, ahead of that of the panel behind. -/
theorem test_leadEvent_passes :
    let t := after (.leadEvent .l0) (sensing .loop none [(500, .pending), (9500, .pending)] [cut .fired])
    (t.seq .l0).map (fun q => q.marks.map (·.status)) = [[.missed, .pending], [.pending]] ∧
      (t.lane .l0).expected = some { serial := 5, index := 1, w := 10500, pred := 10500, expiry := 14531 } := by
  decide +kernel

/-- A lead at 100 with an action beyond the horizon; tails at 900 of a panel that joins the outfeed list, of one
that fills it, and of one that must wait; a drain that ends. -/
theorem witness_LeadAndTailEventsMoveThePanel :
    let q := panelAt 5 .loop 100 900000 [cut .pending]
    let lead (n : Nat) := (atLine n (inState .run State.reset)).setSeq .l0 [q]
    let d := panelAt 50 .cutting 100 900 [cut .fired]
    let tail (n m : Nat) := let s := (atLine n (inState .drain State.reset)).setSeq .l0 [d]
      s.setMap { s.map with
        outfeed := (List.range m).map fun i => panelAt (BitVec.ofNat 16 i) .done 100 900 []
        outfeedFull := decide (24 ≤ m) }
    (q ∈ (lead 99).seq .l0 ∧ 0 < q.leadReading.diff (lead 99).mot.highWater) ∧
      ((lead 100).seq .l0 = [] ++ q :: [] ∧ q.state = .loop ∧
        q.leadReading.diff (lead 100).mot.highWater ≤ 0 ∧ ((lead 100).residents.map (·.serial)).Nodup ∧
        4000 < ((lead 100).firePosition .l0 (q.wLead.plus 4000) ((lead 100).leadNow .l0)).diff
          (lead 100).mot.highWater) ∧
      0 < d.tailEvent.diff (tail 899 0).mot.highWater ∧
      ∀ m ∈ [0, 23, 24], (tail 900 m).seq .l0 = [] ++ d :: [] ∧ (tail 900 m).donePanel d = true ∧
        ((tail 900 m).residents.map (·.serial)).Nodup ∧ (tail 900 m).lnc.line = .drain ∧
        ((tail 900 m).residents.length ≤ 96 ∧ (tail 900 m).map.outfeed.length ≤ 24 ∧
          ((tail 900 m).map.waiting ≠ [] → (tail 900 m).map.outfeed.length = 24)) ∧
        (tail 900 m).map.outfeedFull = decide (24 ≤ (tail 900 m).map.outfeed.length) := by
  decide +kernel

/-! #### The cut scheduler -/

/-- A lane in a state whose panel, with its tail event at a reading, has one PENDING action with fire position
10,000, before the line advance to a count, with so many entries of the lane. -/
def arming (x : LaneState) (tail n entries : Nat) : State :=
  let s := (atLine (n - 1) (inState .run State.reset)).setLane .l0
    { State.reset.lane .l0 with state := x, wref := 1000 }
  (s.setSeq .l0 [panelAt 5 .web 100 tail [cut .pending]]).setCsc
    { fireList := List.replicate entries (entryOf 6 20000 false none), armings := 1 }

/-- Lane states with a distance, the entries of the lane and the tail event of its panel: distances of 0, 300,
301, 4,000 and 4,001 in TRACK, 0 in the others with the tail event ahead or reached, and three entries. -/
def armingCases : List (LaneState × Nat × Nat × Nat) :=
  [(.track, 900000, 10000, 0), (.track, 900000, 9700, 0), (.track, 900000, 9699, 0),
    (.track, 900000, 6000, 0), (.track, 900000, 5999, 0), (.track, 900000, 9700, 3),
    (.coast, 9000, 10000, 0), (.coast, 900000, 9700, 0), (.acquire, 900000, 10000, 0),
    (.acquire, 9000, 10000, 0), (.acquire, 900000, 9700, 0), (.lost, 900000, 10000, 0),
    (.lost, 9000, 10000, 0), (.lost, 900000, 9700, 0)]

theorem arming_quiet : ∀ a ∈ armingCases, (arming a.1 a.2.1 a.2.2.1 a.2.2.2).NothingDue := by
  intro a h d
  fin_cases h <;> rcases d with k | k | k | k | k | k | k | _ | _ | _ <;> (try cases k) <;> decide

theorem witness_ArmingFollowsTheFirePosition :
    let f : Word := 10000
    PhaseLeads ⟨false, false⟩ ⟨true, false⟩ ∧
      (∀ a ∈ armingCases,
        let q := panelAt 5 .web 100 a.2.1 [cut .pending]
        let s := arming a.1 a.2.1 a.2.2.1 a.2.2.2
        s.mot.linePhase = ⟨false, false⟩ ∧ 0 < (s.mot.l + 1).diff s.mot.highWater ∧
        (s.residents.map (·.serial)).Nodup ∧ s.OrdersFit ∧ s.PoolsFit ∧ s.OutfeedFlagFollows ∧
        (s.lane .l0).state = a.1 ∧ a.1 ≠ .idle ∧ s.seq .l0 = [] ++ q :: [] ∧
        q.actions[0]? = some (cut .pending) ∧ q.onWeb = true ∧ (cut .pending).status = .pending ∧
        s.pendingActions .l0 = [⟨q.serial, 0, .cut, q.wLead.plus 4000⟩] ∧
        s.pendingActions .l1 = [] ∧ s.pendingActions .l2 = [] ∧ s.pendingActions .l3 = [] ∧
        ((q.wLead.plus 4000).diff (s.lane .l0).wref).natAbs * (s.lane .l0).scale < 281474976710656 ∧
        s.mot.speed8 = 0 ∧ s.firePosition .l0 (q.wLead.plus 4000) 0 = f ∧
        f.diff (s.mot.l + 1) = (10000 : Int) - a.2.2.1 ∧ (s.laneEntries .l0).length = a.2.2.2) ∧
      -- the panel whose tail event 9,000 is reached at 10,000 is then DONE
      (∀ tail ∈ [(9000, true), (900000, false)], (arming .lost tail.1 10001 0).donePanel
        (panelAt 5 .web 100 tail.1 [cut (.missed .regLost)]) = tail.2) := by
  unfold PhaseLeads State.OrdersFit State.PoolsFit State.OutfeedFlagFollows
  decide +kernel

/-- R109: a panel that enters WEB during a back-off of one count has its action 300 counts ahead left PENDING and
the one at the high-water MISSED; at high-water the first is COMMITTED. -/
theorem test_backOff_armsNothing :
    ∀ a ∈ [(9700, some (.committed 10000)), (9699, some .pending)],
      let s := (arming .track 900000 9701 0).setSeq .l0
        [panelAt 5 .loop 100 900000 [⟨3700, .cut, .pending⟩, cut .pending]]
      let s := s.setMot { s.mot with l := BitVec.ofNat 32 a.1 }
      ((after (.leadEvent .l0) s).seq .l0).map (fun q => q.actions.map (·.status)) =
        [[.missed .tooLateToArm] ++ a.2.toList] := by
  decide +kernel

/-- An entry at F = 1,000 that commits at 700, fires at 1,000 in each line state and each knife state, behind
another that waits or not, and ends at 1,021. -/
theorem witness_FireListEventsFollowTheKnife :
    let e (c : Bool) (w : Option Word) := entryOf 5 1000 c w
    let q (c : Bool) := panelAt 5 .web 100 900000 [cut (if c then .committed 1000 else .armed 1000)]
    let other : FireEntry := { entryOf 5 990 true (some 1011) with index := 1 }
    (∀ l n c w, (armed l n c w).csc.fireList = [] ++ e c w :: [] ∧ (e c w).lane = .l0 ∧
      q c ∈ (armed l n c w).seq .l0 ∧ (q c).serial = (e c w).serial) ∧
      (∀ a ∈ [(699, false), (700, true)], let s := armed .run a.1 false none
        (s.residents.map (·.serial)).Nodup ∧
        decide (((e false none).f.shift (-300)).diff s.mot.highWater ≤ 0) = a.2) ∧
      (∀ a ∈ [(999, false), (1000, true)], ∀ l ∈ [LineState.offline, .ready, .run, .drain, .halted],
        let s := armed l a.1 true none
        s.lnc.line = l ∧ (s.pendingActions .l0 = [] ∧ ∀ q ∈ s.seq .l0, s.reached q.tailEvent = false) ∧
        decide ((e true none).f.diff s.mot.highWater ≤ 0) = a.2) ∧
      (∀ a ∈ [(1020, false), (1021, true)], let s := armed .run a.1 true (some 1021)
        (s.pendingActions .l0 = [] ∧ ∀ q ∈ s.seq .l0, s.reached q.tailEvent = false) ∧
        decide ((1021 : Word).diff s.mot.highWater ≤ 0) = a.2) ∧
      (∀ a ∈ [(1000, true), (1020, true), (1021, false)],
        decide (0 < ((entryOf 5 1000 true none).f.plus
          (State.reset.params.value .cutTolerance + 1)).diff (armed .run a.1 true none).mot.highWater) = a.2) ∧
      (∀ x ∈ [KnifeState.fault, .disabled, strokeAt .away, .ready],
        ((withKnife .l0 x true (armed .run 1000 true none)).knife .l0).state = x) ∧
      (let s := (armed .run 1000 true none).setFireList [other, e true none]
       s.csc.fireList = [other] ++ e true none :: [] ∧ other.lane = .l0 ∧ other.deadline ≠ none ∧
        ¬(other.serial = (e true none).serial ∧ other.index = (e true none).index)) := by
  refine ⟨fun l n c w => ⟨rfl, rfl, ?_, rfl⟩, by decide +kernel⟩
  exact List.mem_singleton.2 rfl

/-! #### Knife lines -/

/-- Knife 0 away from home in a stroke that the entry of panel 5 waits for, or none. -/
def stroking (phase : StrokePhase) (waits : Bool) : State :=
  withKnife .l0 (strokeAt phase) false (armed .run 1000 true (if waits then some 1021 else none))

/-- An entry that waits at the end of a stroke in every line state, and for a knife to be disabled. -/
theorem witness_KnifeLinesEndTheStroke_waiting :
    ∀ l ∈ [LineState.offline, .ready, .halted, .run, .drain], ∀ disable ∈ [false, true],
      let s := (inState l (stroking .away true))
      let s := s.setKnife .l0 { s.knife .l0 with disablePending := disable }
      s.lnc.line = l ∧ (s.knife .l0).state = strokeAt .away ∧ (s.knife .l0).home = false ∧
        (s.knife .l0).disablePending = disable ∧
        s.csc.fireList = [] ++ entryOf 5 1000 true (some 1021) :: [] ∧ (s.residents.map (·.serial)).Nodup ∧
        panelAt 5 .web 100 900000 [cut (.committed 1000)] ∈ s.seq .l0 ∧
        (s.pendingActions .l0 = [] ∧ ∀ q ∈ s.seq .l0, s.reached q.tailEvent = false) := by
  decide +kernel

/-- Durations of 25,000 and 25,001 against a timeout of 250 ms. -/
theorem witness_KnifeLinesEndTheStroke :
    (∀ home, ((withKnife .l0 .ready home State.reset).knife .l0).home = home) ∧
      ((stroking .leaving false).knife .l0).state = strokeAt .leaving ∧
      (∀ waits, ((stroking .away waits).knife .l0).state = strokeAt .away ∧
        ((stroking .away waits).knife .l0).home = false ∧
        ((stroking .away waits).knife .l0).disablePending = false) ∧
      25000 ≤ 250 * 100 ∧ 250 * 100 < 25001 ∧
      (∀ e ∈ (stroking .away false).csc.fireList, e.lane = .l0 → e.deadline = none) ∧
      (stroking .away true).csc.fireList = [] ++ entryOf 5 1000 true (some 1021) :: [] ∧
      ((stroking .away true).residents.map (·.serial)).Nodup ∧
      panelAt 5 .web 100 900000 [cut (.committed 1000)] ∈ (stroking .away true).seq .l0 ∧
      (stroking .away true).QuietLane .l0 ∧ (stroking .away true).lnc.line = .run ∧
      (∀ r : Stroke, (State.reset.knife .l0).state ≠ .stroke r) := by
  refine ⟨fun h => by cases h <;> decide, by decide, fun w => by cases w <;> decide, by decide, by decide,
    by decide, by decide, by decide, by decide, by unfold State.QuietLane; decide, by decide, fun r h => ?_⟩
  injection h

/-! #### The new start of a lane -/

/-- Lane 1 of 4.13 in COAST before a LANE REACQUIRE to (149,700, 132,691): an action of its panel at offset n has the
fire position 118,691 + n, so that one at 14,000 lies at the high-water. -/
def coasting (as : List (Nat × ActionStatus)) (es : List FireEntry) : State :=
  let s := atPrint 170700 (trackedAt 132691 fun r => { r with state := .coast, missCount := 1, recovery := 3 })
  opened .fp ((s.setSeq .l1 [{ panel5 with
    length := 24000, actions := as.map fun a => ⟨a.1, .cut, a.2⟩ }]).setCsc { fireList := es, armings := 2 })

/-- An ARMED action that is disarmed one count ahead of the high-water or at it, behind a COMMITTED one that deviates
by 20 or by 21. -/
theorem witness_LaneReacquireStartsAfresh_disarmed :
    ∀ a ∈ [(14001, 132770, 0, true), (14001, 132769, 1, true), (14000, 132770, 0, false)],
      let s := coasting [(14099, .committed (BitVec.ofNat 32 a.2.1)), (a.1, .armed 138000)]
        [handed 0 a.2.1 0 true none, handed 1 138000 0 false none]
      let new := (after (.laneReacquire .fp [1]) s).lane .l1
      s.receiving .fp = true ∧ (1 : Byte).toNat = laneNumber .l1 ∧ (s.lane .l1).state = .coast ∧
        (new.wref, new.lref) = (149700, 132691) ∧ s.SerialsUnique ∧ s.EntriesMatch ∧
        s.deviations .l1 new = a.2.2.1 ∧ new.recovery = 3 + a.2.2.1 ∧
        (∀ q ∈ s.seq .l1, s.donePanel (s.reacquired .l1 new q) = false ∧ q.onWeb = true) ∧
        (s.seq .l1).map (fun q => (s.reacquired .l1 new q).actions.map fun b =>
          (b.status, decide ((s.fireOn .l1 new q b).diff s.mot.highWater ≤ 0))) =
          [[(.committed (BitVec.ofNat 32 a.2.1), false), (.pending, !a.2.2.2)]] ∧
        ((after (.laneReacquire .fp [1]) s).seq .l1).map (fun q => q.actions.map (·.status)) =
          [[.committed (BitVec.ofNat 32 a.2.1),
            if a.2.2.2 then .pending else .missed .notRegistered]] := by
  unfold State.SerialsUnique State.EntriesMatch
  decide +kernel

end Sys2Proof.Tests
end

section
/-! SUPPORT. What an answered request leaves, in the words of the statements: a refusal that only replies, and
an accepted request whose effects stay inside a frame (R165, R177, R180, R182). -/

namespace Sys2Proof.Machine

/-- The state with an accepted request in the history differs in `cnd` alone. -/
theorem State.recordRequest_of_joins (s : State) (p : Port) {r : Request} (b : List Byte)
    (h : r.joinsHistory = true) :
    s.recordRequest p r b = s.setCnd { s.cnd with
      history := ({ port := p, kind := r.kind, length := byteOf b.length, bytes := firstFour b,
                    l := s.mot.l } :: s.cnd.history).take Config.historyEntries } := by
  simp [State.recordRequest, h]

/-- The request history is the only part that joining it changes (R177). -/
theorem recordRequest_sameBut (s : State) (p : Port) (r : Request) (b : List Byte) :
    s.SameBut [.history] (s.recordRequest p r b) := by
  unfold State.recordRequest
  intro x hx
  split <;> cases x <;> first | rfl | exact absurd (List.mem_singleton.2 rfl) hx

/-- A reply sent from a state with the framers of `s` and the port present answers the request (R180, R182). -/
theorem State.sendReply_answered {s u : State} {p : Port} (b : List Byte) (r : Reply)
    (h : s.receiving p = true) (hframers : u.pif.framers = s.pif.framers)
    (hpresent : u.cnd.present = s.cnd.present.set p true) :
    s.Answered p r.code.code r.body (u.sendReply p b r) := by
  have hframer : u.framer p = s.framer p := congrArg (·.get p) hframers
  have hu : u.receiving p = true := by rw [State.receiving, hframer]; exact h
  rw [State.sendReply_framer b r hu, hframer]
  exact ⟨by rw [← hframers]; rfl, hpresent⟩

/-- A command whose request is refused without a report replies, and changes nothing else (step 4 of R182). -/
theorem leads_refused {i : Instr} {p : Port} {r : Request} {b : List Byte} {rule : State → Verdict}
    {s : State} {c : ReplyCode} {body : List Byte} (hexec : exec i s = takeRequest p r b rule s)
    (h : s.receiving p = true) (ha : r.allowed p = true)
    (hv : rule (s.markPresent p) = .refused c body id) :
    Leads i s (s.AnsweredOnly p c.code body []) :=
  ⟨(s.markPresent p).sendReply p b ⟨c, body⟩, hexec.trans (takeRequest_refused h ha hv),
    State.sendReply_answered b ⟨c, body⟩ h rfl rfl,
    ((markPresent_sameBut s p).trans (sendReply_sameBut _ p b _)).mono (by simp)⟩

/-- A reply to an accepted request whose effects stay inside the frame `ps` (R177, step 4 of R182). -/
theorem State.sendReply_performed {s v : State} {p : Port} {r : Request} {b reply : List Byte}
    {ps : List Part} (h : s.receiving p = true) (hjoins : r.joinsHistory = true)
    (hframe : ((s.markPresent p).recordRequest p r b).SameBut ps v)
    (hps : Part.framers ∉ ps ∧ Part.present ∉ ps ∧ Part.history ∉ ps) :
    s.Performed p r.kind b reply ps (v.sendReply p b ⟨.accepted, reply⟩) := by
  obtain ⟨hframers, hpresent, hhistory⟩ := hps
  have hkept := hframe
  rw [State.recordRequest_of_joins _ p b hjoins] at hkept
  refine ⟨State.sendReply_answered b ⟨.accepted, reply⟩ h (hkept _ hframers) (hkept _ hpresent),
    hkept _ hhistory, ?_⟩
  have hall := (((markPresent_sameBut s p).trans (recordRequest_sameBut _ p r b)).trans hframe).trans
    (sendReply_sameBut v p b ⟨.accepted, reply⟩)
  refine hall.mono fun x hx => ?_
  simp only [List.mem_append, List.mem_cons, List.not_mem_nil, or_false] at hx ⊢
  tauto

/-- A command whose request is accepted and joins the history performs it, with effects inside the frame
`ps`; whatever holds of the state that sends the reply follows. -/
theorem leads_performed {i : Instr} {p : Port} {r : Request} {b reply : List Byte}
    {rule : State → Verdict} {s v : State} {f : State → State × List Byte} {ps : List Part}
    {P : State → Prop} (hexec : exec i s = takeRequest p r b rule s)
    (h : s.receiving p = true) (ha : r.allowed p = true) (hjoins : r.joinsHistory = true)
    (hv : rule (s.markPresent p) = .accepted f)
    (heffect : f ((s.markPresent p).recordRequest p r b) = (v, reply))
    (hframe : ((s.markPresent p).recordRequest p r b).SameBut ps v)
    (hps : Part.framers ∉ ps ∧ Part.present ∉ ps ∧ Part.history ∉ ps)
    (hP : P (v.sendReply p b ⟨.accepted, reply⟩)) :
    Leads i s fun t => s.Performed p r.kind b reply ps t ∧ P t := by
  refine ⟨_, hexec.trans (takeRequest_accepted h ha hv), ?_⟩
  rw [heffect]
  exact ⟨State.sendReply_performed h hjoins hframe hps, hP⟩

end Sys2Proof.Machine
end

section
/-! SUPPORT. The plan store: lanes by number, the plan queues and their records, the fields of a short body,
and the checks of Table 2-2 as statements about offsets. -/

namespace Sys2Proof.Machine

/-! ### Lanes and body fields -/

@[simp] theorem laneOf_laneNumber (k : Lane) : laneOf (laneNumber k) = some k := by cases k <;> rfl

/-- A number above 3 names no lane. -/
theorem laneOf_eq_none {n : Nat} (h : 3 < n) : laneOf n = none := by
  match n, h with
  | n + 4, _ => rfl

/-- The first byte of a body. -/
theorem field_head (b : Byte) (bs : List Byte) : field (b :: bs) 0 1 = b.toNat := by
  simp [field, beNat]

/-- A number of two bytes is read back behind one byte. -/
theorem field16_bigEndian (b : Byte) (x : Half) : field16 ([b] ++ bigEndian 2 x.toNat) 1 = x := by
  have hx := x.isLt
  apply BitVec.eq_of_toNat_eq
  simp [field16, field, beNat, bigEndian, byteOf]
  omega

/-! ### Plan queues and their records -/

/-- The plan store is the only part that a new plan queue changes. -/
theorem setPlans_sameBut (s : State) (k : Lane) (ps : List Plan) :
    s.SameBut [.pls] (s.setPlans k ps) := by
  intro x hx
  cases x <;> first | rfl | exact absurd (List.mem_singleton.2 rfl) hx

/-- The records in use after a lane's queue is replaced (R18). -/
theorem State.usedPlans_setPlans (s : State) (k : Lane) (ps : List Plan) :
    (s.setPlans k ps).usedPlans + (s.plans k).length = s.usedPlans + ps.length := by
  cases k <;> simp [State.usedPlans, State.plans_setPlans] <;> omega

/-- The records in use depend on the plan store alone (R18). -/
theorem State.usedPlans_eq_of_pls {s t : State} (h : t.pls = s.pls) : t.usedPlans = s.usedPlans := by
  simp [State.usedPlans, State.plans, h]

/-- A request that is accepted with the queue of lane `k` changed by `g` performs that: the store differs in
this queue alone, and the records in use follow its length (R18). -/
theorem leads_performed_setPlans {i : Instr} {p : Port} {r : Request} {b : List Byte}
    {rule : State → Verdict} {s : State} {k : Lane} {g : List Plan → List Plan}
    (hexec : exec i s = takeRequest p r b rule s) (h : s.receiving p = true)
    (ha : r.allowed p = true) (hjoins : r.joinsHistory = true)
    (hv : rule (s.markPresent p) = .perform fun u => u.setPlans k (g (u.plans k))) :
    Leads i s fun t => s.Performed p r.kind b [] [.pls] t ∧
      t.pls = { s.pls with queues := s.pls.queues.set k (g (s.plans k)) } ∧
      t.usedPlans + (s.plans k).length = s.usedPlans + (g (s.plans k)).length := by
  refine leads_performed hexec h ha hjoins hv rfl (setPlans_sameBut _ k _) (by decide) ?_
  set t := (State.setPlans _ k _).sendReply p b _ with ht
  have hpls : t.pls = (s.setPlans k (g (s.plans k))).pls := by
    rw [ht]
    simp [State.sendReply, State.setPlans, State.plans, State.markPresent, State.recordRequest_of_joins, hjoins]
  refine ⟨hpls, ?_⟩
  rw [State.usedPlans_eq_of_pls hpls]
  exact State.usedPlans_setPlans s k _

/-! ### The checks of Table 2-2 -/

/-- The spacing check, offset by offset. -/
theorem spaced_iff (gap : Nat) (xs : List Nat) :
    spaced gap xs = true ↔ ∀ i x y, xs[i]? = some x → xs[i + 1]? = some y → x + gap ≤ y := by
  induction xs with
  | nil => simp [spaced]
  | cons x rest ih =>
    cases rest with
    | nil => simp [spaced]
    | cons y rest =>
      rw [spaced, Bool.and_eq_true, decide_eq_true_iff, ih]
      constructor
      · rintro ⟨hfirst, hrest⟩ (_ | i) a b ha hb
        · simp at ha hb
          omega
        · exact hrest i a b (by simpa using ha) (by simpa using hb)
      · intro hall
        refine ⟨hall 0 x y rfl rfl, fun i a b ha hb => ?_⟩
        exact hall (i + 1) a b (by simpa using ha) (by simpa using hb)

/-- The spacing check on the offsets of actions. -/
theorem spaced_map_fst_iff (gap : Nat) (as : List (Nat × Nat)) :
    spaced gap (as.map (·.1)) = true ↔
      ∀ i x y, as[i]? = some x → as[i + 1]? = some y → x.1 + gap ≤ y.1 := by
  rw [spaced_iff]
  constructor
  · intro h i x y hx hy
    exact h i x.1 y.1 (by simp [hx]) (by simp [hy])
  · intro h i x y hx hy
    rw [List.getElem?_map, Option.map_eq_some_iff] at hx hy
    obtain ⟨a, ha, rfl⟩ := hx
    obtain ⟨b, hb, rfl⟩ := hy
    exact h i a b ha hb

/-- Table 2-2 names the kind codes 0 and 1 alone. -/
theorem isSome_actionKindOf (n : Nat) : (actionKindOf n).isSome = true ↔ n = 0 ∨ n = 1 := by
  match n with
  | 0 | 1 => simp [actionKindOf]
  | n + 2 => simp [actionKindOf]

/-- The kind of a code that Table 2-2 lets pass. -/
theorem actionKindOf_getD {n : Nat} (h : n = 0 ∨ n = 1) :
    (actionKindOf n).getD .cut = if n = 0 then .cut else .perf := by
  obtain rfl | rfl := h <;> rfl

/-- Some mark and some action being there, the first of each are the ones the last offset check compares. -/
theorem headD_lt_headD_iff {ms : List Nat} {as : List (Nat × Nat)} (hm : 1 ≤ ms.length)
    (ha : 1 ≤ as.length) : ms.headD 0 < (as.map (·.1)).headD 0 ↔
      ∀ m a, ms.head? = some m → as.head? = some a → m < a.1 := by
  match ms, as, hm, ha with
  | m :: ms, a :: as, _, _ => simp

/-- The checks of Table 2-2 on a plan's fields, row by row. -/
theorem PlanBody.valid_iff (q : PlanBody) (spacing : Nat) : q.valid spacing = true ↔
    1000 ≤ q.length ∧ q.length ≤ 600000 ∧
      1 ≤ q.marks.length ∧ q.marks.length ≤ 8 ∧ 1 ≤ q.actions.length ∧ q.actions.length ≤ 6 ∧
      (∀ a ∈ q.actions, a.2 = 0 ∨ a.2 = 1) ∧ (∀ m ∈ q.marks, m ≤ q.length) ∧
      (∀ a ∈ q.actions, a.1 ≤ q.length) ∧
      (∀ i x y, q.marks[i]? = some x → q.marks[i + 1]? = some y → x + 500 ≤ y) ∧
      (∀ i x y, q.actions[i]? = some x → q.actions[i + 1]? = some y → x.1 + spacing ≤ y.1) ∧
      (∀ m a, q.marks.head? = some m → q.actions.head? = some a → m < a.1) ∧
      (q.indication = 0 ∧ q.reprintTag = 0 ∨ q.indication = 1) := by
  have hindication : q.indication ≤ 1 ∧ (q.indication = 1 ∨ q.reprintTag = 0) ↔
      (q.indication = 0 ∧ q.reprintTag = 0 ∨ q.indication = 1) := by
    constructor
    · rintro ⟨hle, htag⟩
      obtain h | h : q.indication = 0 ∨ q.indication = 1 := by omega
      · exact .inl ⟨h, htag.resolve_left (by omega)⟩
      · exact .inr h
    · rintro (⟨h, htag⟩ | h)
      · exact ⟨by omega, .inr htag⟩
      · exact ⟨by omega, .inl h⟩
  by_cases hm : 1 ≤ q.marks.length
  · by_cases ha : 1 ≤ q.actions.length
    · rw [← hindication, ← headD_lt_headD_iff hm ha, ← spaced_map_fst_iff, ← spaced_iff]
      simp only [PlanBody.valid, Bool.and_eq_true, decide_eq_true_iff, List.all_eq_true,
        isSome_actionKindOf, Bool.or_eq_true, beq_iff_eq, and_assoc]
    · simp [PlanBody.valid, ha]
  · simp [PlanBody.valid, hm]

/-- The plan record of a plan that passed Table 2-2. -/
theorem PlanBody.plan_of_valid {q : PlanBody} (h : ∀ a ∈ q.actions, a.2 = 0 ∨ a.2 = 1) : q.plan = {
    tag := q.tag, length := q.length, marks := q.marks,
    actions := q.actions.map fun a => (a.1, if a.2 = 0 then .cut else .perf),
    reprintOf := if q.indication = 1 then some q.reprintTag else none } := by
  simp only [PlanBody.plan, Plan.mk.injEq, true_and, and_true]
  exact List.map_congr_left fun a ha => by rw [actionKindOf_getD (h a ha)]

end Sys2Proof.Machine
end

section
/-! SUPPORT. PLAN ADD (R21, R22) and PLAN WITHDRAW (R23): their rules branch by branch, and the statements
about them. -/

namespace Sys2Proof.Machine

/-! ### PLAN ADD -/

theorem exec_planAdd (p : Port) (b : List Byte) (s : State) :
    exec (.planAdd p b) s = takeRequest p .planAdd b (planAddRule p b) s := by rfl

section Verdicts

variable {p : Port} {b : List Byte} {q : PlanBody} {k : Lane} {s : State}

/-- The order of the checks on a body that carries plan `q` for lane `k` (R21, R22). -/
theorem planAddRule_of_planBody (hq : planBody b = some q) (hk : q.lane = laneNumber k) :
    planAddRule p b s =
      if !(s.params.isPresent k && q.valid (s.params.value .minimumCutSpacing)) then .refuse .badArgument
      else if (s.plans k).any (·.tag == q.tag) then .refuse .duplicateTag
      else if s.freePlans = 0 then .refuse .listFull
      else .perform fun u => u.setPlans k (u.plans k ++ [q.plan]) := by
  simp only [planAddRule, hq, hk, laneOf_laneNumber]
  rfl

theorem planAddRule_badArgument (hq : planBody b = some q) (hk : q.lane = laneNumber k)
    (hbad : ¬(s.params.isPresent k = true ∧ q.valid (s.params.value .minimumCutSpacing) = true)) :
    planAddRule p b s = .refuse .badArgument := by
  rw [← Bool.and_eq_true] at hbad
  rw [planAddRule_of_planBody hq hk, if_pos (by simp [hbad])]

theorem planAddRule_duplicateTag (hq : planBody b = some q) (hk : q.lane = laneNumber k)
    (hok : s.params.isPresent k = true ∧ q.valid (s.params.value .minimumCutSpacing) = true)
    (hdup : ∃ x ∈ s.plans k, x.tag = q.tag) : planAddRule p b s = .refuse .duplicateTag := by
  rw [planAddRule_of_planBody hq hk, if_neg (by simp [hok]), if_pos (by simpa using hdup)]

theorem planAddRule_listFull (hq : planBody b = some q) (hk : q.lane = laneNumber k)
    (hok : s.params.isPresent k = true ∧ q.valid (s.params.value .minimumCutSpacing) = true)
    (hnew : ∀ x ∈ s.plans k, x.tag ≠ q.tag) (hfull : s.freePlans = 0) :
    planAddRule p b s = .refuse .listFull := by
  rw [planAddRule_of_planBody hq hk, if_neg (by simp [hok]), if_neg (by simpa using hnew), if_pos hfull]

theorem planAddRule_perform (hq : planBody b = some q) (hk : q.lane = laneNumber k)
    (hok : s.params.isPresent k = true ∧ q.valid (s.params.value .minimumCutSpacing) = true)
    (hnew : ∀ x ∈ s.plans k, x.tag ≠ q.tag) (hfree : 0 < s.freePlans) :
    planAddRule p b s = .perform fun u => u.setPlans k (u.plans k ++ [q.plan]) := by
  rw [planAddRule_of_planBody hq hk, if_neg (by simp [hok]), if_neg (by simpa using hnew),
    if_neg hfree.ne']

end Verdicts

/-- Settles O34: one verdict per clause, with Table 2-2 read row by row. -/
theorem planAddChecksAndQueues : Obligations.PlanAddChecksAndQueues := by
  intro q k s hrx hq hk fits
  have hfits : fits ↔
      s.params.isPresent k = true ∧ q.valid (s.params.value .minimumCutSpacing) = true := by
    rw [PlanBody.valid_iff]
  have hexec := exec_planAdd .jp q.bytes s
  refine ⟨fun hbad => ?_, fun hok hdup => ?_, fun hok hnew hfull => ?_, fun hok hnew hfree => ?_⟩
  · rw [hfits] at hbad
    exact leads_refused hexec hrx rfl (planAddRule_badArgument hq hk hbad)
  · exact leads_refused hexec hrx rfl (planAddRule_duplicateTag hq hk (hfits.1 hok) hdup)
  · exact leads_refused hexec hrx rfl (planAddRule_listFull hq hk (hfits.1 hok) hnew hfull)
  · obtain ⟨t, ht, hperformed, hpls, hused⟩ :=
      leads_performed_setPlans (g := (· ++ [q.plan])) hexec hrx rfl rfl
        (planAddRule_perform hq hk (hfits.1 hok) hnew hfree)
    obtain ⟨-, -, -, -, -, -, -, hkinds, -⟩ := hok
    rw [PlanBody.plan_of_valid hkinds] at hpls
    rw [List.length_append, List.length_singleton] at hused
    exact ⟨t, ht, hperformed, hpls, by omega⟩

/-! ### PLAN WITHDRAW -/

theorem exec_planWithdraw (p : Port) (b : List Byte) (s : State) :
    exec (.planWithdraw p b) s = takeRequest p .planWithdraw b (planWithdrawRule p b) s := by rfl

/-- A lane byte above 3 names no lane. -/
theorem planWithdrawRule_of_noLane {p : Port} {b : Byte} (tag : Half) (h : 3 < b.toNat) (s : State) :
    planWithdrawRule p ([b] ++ bigEndian 2 tag.toNat) s = .refuse .badArgument := by
  simp [planWithdrawRule, bigEndian, field_head, laneOf_eq_none h]

section Verdicts

variable {p : Port} {b : Byte} {tag : Half} {k : Lane} {s : State}

/-- The order of the checks on a tag for lane `k` (R23). -/
theorem planWithdrawRule_of_lane (h : b.toNat = laneNumber k) :
    planWithdrawRule p ([b] ++ bigEndian 2 tag.toNat) s =
      if (s.plans k).any (·.tag == tag) then
        .perform fun u => u.setPlans k ((u.plans k).eraseP (·.tag == tag))
      else if (s.residentsOf k).any (·.tag == tag) then .refuse .inMap
      else .refuse .unknownTag := by
  have hlength : ([b] ++ bigEndian 2 tag.toNat).length = 3 := rfl
  have hlane : laneOf (field ([b] ++ bigEndian 2 tag.toNat) 0 1) = some k := by
    rw [List.singleton_append, field_head, h, laneOf_laneNumber]
  simp only [planWithdrawRule, hlength, if_true, hlane, field16_bigEndian]

theorem planWithdrawRule_perform (h : b.toNat = laneNumber k) (hqueued : ∃ x ∈ s.plans k, x.tag = tag) :
    planWithdrawRule p ([b] ++ bigEndian 2 tag.toNat) s =
      .perform fun u => u.setPlans k ((u.plans k).eraseP (·.tag == tag)) := by
  rw [planWithdrawRule_of_lane h, if_pos (by simpa using hqueued)]

theorem planWithdrawRule_inMap (h : b.toNat = laneNumber k) (hnone : ∀ x ∈ s.plans k, x.tag ≠ tag)
    (hmap : ∃ q ∈ s.residentsOf k, q.tag = tag) :
    planWithdrawRule p ([b] ++ bigEndian 2 tag.toNat) s = .refuse .inMap := by
  rw [planWithdrawRule_of_lane h, if_neg (by simpa using hnone), if_pos (by simpa using hmap)]

theorem planWithdrawRule_unknownTag (h : b.toNat = laneNumber k) (hnone : ∀ x ∈ s.plans k, x.tag ≠ tag)
    (habsent : ∀ q ∈ s.residentsOf k, q.tag ≠ tag) :
    planWithdrawRule p ([b] ++ bigEndian 2 tag.toNat) s = .refuse .unknownTag := by
  rw [planWithdrawRule_of_lane h, if_neg (by simpa using hnone), if_neg (by simpa using habsent)]

end Verdicts

/-- The first plan with the tag is the one removed (R23). -/
theorem eraseP_first_tag {pre post : List Plan} {x : Plan} {tag : Half} (hx : x.tag = tag)
    (hpre : ∀ y ∈ pre, y.tag ≠ tag) :
    (pre ++ x :: post).eraseP (·.tag == tag) = pre ++ post := by
  rw [List.eraseP_append_right _ (by simpa using hpre), List.eraseP_cons_of_pos (by simpa using hx)]

/-- Settles O35: one verdict per clause, and the first plan with the tag is the one erased. -/
theorem planWithdrawRemovesThePlan : Obligations.PlanWithdrawRemovesThePlan := by
  intro b tag s hrx
  have hexec := exec_planWithdraw .jp ([b] ++ bigEndian 2 tag.toNat) s
  refine ⟨fun hlane => ?_, fun k hk => ⟨fun pre post x hqueue hx hpre => ?_, fun hnone =>
    ⟨fun hmap => ?_, fun habsent => ?_⟩⟩⟩
  · exact leads_refused hexec hrx rfl (planWithdrawRule_of_noLane tag hlane _)
  · have hqueued : ∃ y ∈ s.plans k, y.tag = tag := ⟨x, by simp [hqueue], hx⟩
    obtain ⟨t, ht, hperformed, hpls, hused⟩ :=
      leads_performed_setPlans (g := List.eraseP (·.tag == tag)) hexec hrx rfl rfl
        (planWithdrawRule_perform hk hqueued)
    rw [hqueue, eraseP_first_tag hx hpre] at hpls hused
    simp only [List.length_append, List.length_cons] at hused
    exact ⟨t, ht, hperformed, hpls, by omega⟩
  · exact leads_refused hexec hrx rfl (planWithdrawRule_inMap hk hnone hmap)
  · exact leads_refused hexec hrx rfl (planWithdrawRule_unknownTag hk hnone habsent)

end Sys2Proof.Machine
end

section
/-! SUPPORT. What requests on the panel map share: the panel record as bytes (Table 10-7), the lane that a body
of one byte names, and the answer to a request that stays out of the history. -/

namespace Sys2Proof.Machine

/-! ### The panel record on the wire -/

@[simp] theorem fieldBytes_nil : fieldBytes [] = [] := rfl

@[simp] theorem fieldBytes_cons (f : Nat × Nat) (fs : List (Nat × Nat)) :
    fieldBytes (f :: fs) = bigEndian f.1 f.2 ++ fieldBytes fs := rfl

@[simp] theorem fieldBytes_append (fs gs : List (Nat × Nat)) :
    fieldBytes (fs ++ gs) = fieldBytes fs ++ fieldBytes gs := List.flatMap_append

@[simp] theorem fieldBytes_flatMap {α : Type} (xs : List α) (f : α → List (Nat × Nat)) :
    fieldBytes (xs.flatMap f) = xs.flatMap fun x => fieldBytes (f x) := List.flatMap_assoc

theorem bigEndian_one (n : Nat) : bigEndian 1 n = be1 n := rfl

theorem bigEndian_two (n : Nat) : bigEndian 2 n = be2 n := rfl

theorem bigEndian_three (n : Nat) : bigEndian 3 n = be3 n := by
  simp [bigEndian, be3, Nat.div_div_eq_div_mul]

theorem bigEndian_four (n : Nat) : bigEndian 4 n = be4 n := by
  simp [bigEndian, be4, Nat.div_div_eq_div_mul]

@[simp] theorem fieldBytes_markFields (m : MarkEntry) : fieldBytes (markFields m) = markBytes m := by
  rcases m with ⟨offset, _ | e | _⟩ <;> simp [markFields, markBytes, MarkStatus.code, intBytes4, twos,
    bigEndian_one, bigEndian_three, bigEndian_four]

@[simp] theorem fieldBytes_actionFields (a : ActionEntry) :
    fieldBytes (actionFields a) = actionBytes a := by
  have hkind : (if a.kind = .cut then 0 else 1) = a.kind.code := by cases a.kind <;> rfl
  rcases a with ⟨offset, kind, status⟩
  cases status <;> simp [actionFields, actionBytes, ActionStatus.code, ActionStatus.missCode,
    ActionStatus.position, wordBytes, hkind, bigEndian_one, bigEndian_three, bigEndian_four]

/-- The panel record of a reply is the one of Table 10-7, with the place as its code. -/
theorem panelReply_code (place : Place) (q : Panel) : panelReply place.code q = panelBytes q place := by
  have hbit : bit = flagNat := by funext b; cases b <;> rfl
  have hplace : (place == .laneSequence) = (place.code == 0) := by cases place <;> rfl
  have hpresent : ∀ w : Word, (if (place.code == 0) = true then w else 0).toNat =
      if place.code = 0 then w.toNat else 0 := by
    intro w
    by_cases h : place.code = 0 <;> simp [h]
  simp only [panelReply, panelBytes, fieldBytes_append, fieldBytes_cons, fieldBytes_nil, bigEndian_one,
    bigEndian_two, bigEndian_four, fieldBytes_flatMap, fieldBytes_markFields, fieldBytes_actionFields,
    hbit, hplace, wordBytes, hpresent, List.append_assoc, List.append_nil]
  cases q.voidCause <;> cases q.disposition <;> cases q.reprintOf <;> rfl

/-! ### A body of one byte that names a lane -/

theorem bodyLane_of_laneNumber {b : Byte} {k : Lane} (h : b.toNat = laneNumber k) :
    bodyLane [b] = some k := by
  rw [bodyLane, h, laneOf_laneNumber]

/-- A body of another length, or with a byte above 3, names no lane. -/
theorem bodyLane_eq_none {body : List Byte} (h : body.length ≠ 1 ∨ 3 < (body.headD 0).toNat) :
    bodyLane body = none := by
  match body, h with
  | [], _ => rfl
  | [b], h => exact laneOf_eq_none (by simpa using h)
  | _ :: _ :: _, _ => rfl

/-! ### Frames of the block updates -/

theorem State.SameBut.refl (s : State) : s.SameBut [] s := by
  intro x _
  cases x <;> rfl

theorem setMap_sameBut (s : State) (b : PanelMap) : s.SameBut [.map] (s.setMap b) := by
  intro x hx
  cases x <;> first | rfl | exact absurd (List.mem_singleton.2 rfl) hx

theorem setLpm_sameBut (s : State) (b : Lpm) : s.SameBut [.lpm] (s.setLpm b) := by
  intro x hx
  cases x <;> first | rfl | exact absurd (List.mem_singleton.2 rfl) hx

theorem setQueue_sameBut (s : State) (q : List Record) : s.SameBut [.queue] (s.setQueue q) := by
  intro x hx
  cases x <;> first | rfl | exact absurd (List.mem_singleton.2 rfl) hx

/-! ### Requests that stay out of the history -/

/-- An accepted request that R177 leaves out of the history has its effects on the state as it is. -/
theorem State.recordRequest_of_not_joins (s : State) (p : Port) {r : Request} (b : List Byte)
    (h : r.joinsHistory = false) : s.recordRequest p r b = s := by
  simp [State.recordRequest, h]

/-- A reply sent from a state that the request changed inside the frame `ps` (R165, R180). -/
theorem State.sendReply_answeredOnly {s v : State} {p : Port} {ps : List Part} (b : List Byte) (r : Reply)
    (h : s.receiving p = true) (hframe : (s.markPresent p).SameBut ps v)
    (hps : Part.framers ∉ ps ∧ Part.present ∉ ps) :
    s.AnsweredOnly p r.code.code r.body ps (v.sendReply p b r) := by
  obtain ⟨hframers, hpresent⟩ := hps
  refine ⟨State.sendReply_answered b r h (hframe _ hframers) (hframe _ hpresent), ?_⟩
  refine (((markPresent_sameBut s p).trans hframe).trans (sendReply_sameBut v p b r)).mono fun x hx => ?_
  simp only [List.mem_append, List.mem_cons, List.not_mem_nil, or_false] at hx ⊢
  tauto

end Sys2Proof.Machine
end

section
/-! SUPPORT. MAP SEEK and MAP READ (R57 to R60): the least W_lead of a list of panels, the walk of a cursor over
the lanes, and the statement about them. -/

namespace Sys2Proof.Machine

/-! ### The least W_lead -/

/-- A coordinate that lies ahead of another has it behind itself (0.4.3). -/
theorem diff_neg_of_pos {a b : Word} (h : 0 < a.diff b) : b.diff a < 0 := by
  simp only [Word.diff, BitVec.toInt_eq_toNat_cond, BitVec.toNat_sub] at h ⊢
  omega

theorem mem_of_leastPanel {qs : List Panel} {q : Panel} (h : leastPanel qs = some q) : q ∈ qs := by
  induction qs with
  | nil => cases h
  | cons x xs ih =>
    rw [leastPanel] at h
    split at h
    · simp_all
    · split at h <;> simp_all

/-- A panel that every other one of the list lies ahead of is the one with the least W_lead (R59). -/
theorem leastPanel_eq_some {qs : List Panel} {q : Panel} (hq : q ∈ qs)
    (hleast : ∀ x ∈ qs, x ≠ q → 0 < x.wLead.diff q.wLead) : leastPanel qs = some q := by
  induction qs with
  | nil => cases hq
  | cons x xs ih =>
    by_cases hmem : q ∈ xs
    · rw [leastPanel, ih hmem fun y hy => hleast y (.tail _ hy)]
      by_cases hx : x = q
      · simp [hx]
      · simp [diff_neg_of_pos (hleast x (.head _) hx)]
    · obtain rfl : q = x := (List.mem_cons.1 hq).resolve_right hmem
      rw [leastPanel]
      split
      · rfl
      · next r hr =>
        have hrs := mem_of_leastPanel hr
        have hpos := hleast r (.tail _ hrs) fun e => hmem (e ▸ hrs)
        rw [if_neg (by omega)]

/-! ### The walk over the lanes -/

/-- The walk finds the first panel of the first present lane that has one (R59). -/
theorem State.walk_eq_findSome? {s : State} {f : Lane → Option Panel} {ks : List Lane}
    (h : ∀ k ∈ ks, f k = if s.params.isPresent k then s.firstPanel k else none) :
    s.walk ks = ks.findSome? f := by
  induction ks with
  | nil => rfl
  | cons k ks ih =>
    rw [State.walk, List.findSome?_cons, h k (.head _), ih fun j hj => h j (.tail _ hj)]
    split
    · cases s.firstPanel k <;> rfl
    · rfl

/-- A search of all lanes that finds nothing below lane `j` begins there. -/
theorem findSome?_lanes_from {α : Type} {f : Lane → Option α} (j : Lane)
    (hbelow : ∀ i, laneNumber i < laneNumber j → f i = none) :
    lanes.findSome? f = (f j).or ((lanesAbove j).findSome? f) := by
  have hcons (k : Lane) (ks : List Lane) : (k :: ks).findSome? f = (f k).or (ks.findSome? f) := by
    rw [List.findSome?_cons]
    cases f k <;> rfl
  have hskip {k : Lane} (ks : List Lane) (hk : laneNumber k < laneNumber j) :
      (k :: ks).findSome? f = ks.findSome? f := by
    rw [hcons, hbelow k hk, Option.none_or]
  cases j with
  | l0 => exact hcons ..
  | l1 => exact (hskip _ (by decide)).trans (hcons ..)
  | l2 => exact (hskip _ (by decide)).trans ((hskip _ (by decide)).trans (hcons ..))
  | l3 =>
    exact (hskip _ (by decide)).trans ((hskip _ (by decide)).trans ((hskip _ (by decide)).trans (hcons ..)))

theorem laneNumber_lt_of_mem_lanesAbove {j k : Lane} (h : k ∈ lanesAbove j) :
    laneNumber j < laneNumber k := by
  revert h
  cases j <;> cases k <;> decide

/-- A cursor that considers nothing below lane `j`, and above it every panel of the present lanes, finds the
least W_lead of lane `j` or walks on (R59). -/
theorem State.findSome?_considered {s : State} {c : Cursor} {j : Lane}
    (hbelow : ∀ i, laneNumber i < laneNumber j → s.considered c i = [])
    (habove : ∀ k, laneNumber j < laneNumber k →
      s.considered c k = if s.params.isPresent k then s.residentsOf k else []) :
    (lanes.findSome? fun k => leastPanel (s.considered c k)) =
      (leastPanel (s.considered c j)).or (s.walk (lanesAbove j)) := by
  rw [findSome?_lanes_from j fun i hi => by rw [hbelow i hi, leastPanel]]
  congr 1
  refine (State.walk_eq_findSome? fun k hk => ?_).symm
  rw [habove k (laneNumber_lt_of_mem_lanesAbove hk), State.firstPanel]
  split <;> rfl

/-- MAP READ finds the least W_lead of the first lane where the cursor considers any panel (R59). -/
theorem State.readAt_eq_findSome? (s : State) (c : Cursor) :
    s.readAt c = lanes.findSome? fun k => leastPanel (s.considered c k) := by
  have hne {i j : Lane} (h : laneNumber i < laneNumber j) : i ≠ j ∧ j ≠ i ∧ ¬laneNumber j < laneNumber i :=
    ⟨fun e => by simp [e] at h, fun e => by simp [e] at h, by omega⟩
  cases c with
  | atEnd => rfl
  | start j =>
    rw [State.findSome?_considered (j := j)]
    · simp [State.readAt, State.considered, State.firstPanel]
    · intro i hi
      simp [State.considered, hne hi]
    · intro k hk
      simp [State.considered, hne hk, hk]
  | coordinate j w =>
    rw [State.findSome?_considered (j := j)]
    · simp [State.readAt, State.considered, State.panelFrom]
    · intro i hi
      simp [State.considered, hne hi]
    · intro k hk
      simp [State.considered, hne hk, hk]

/-- The panel with the least W_lead of the first lane where the cursor considers any is the one read. -/
theorem State.readAt_eq_some {s : State} {c : Cursor} {k : Lane} {q : Panel}
    (hq : q ∈ s.considered c k)
    (hleast : ∀ x ∈ s.considered c k, x ≠ q → 0 < x.wLead.diff q.wLead)
    (hbelow : ∀ j, laneNumber j < laneNumber k → s.considered c j = []) : s.readAt c = some q := by
  rw [State.readAt_eq_findSome?, findSome?_lanes_from k fun j hj => by rw [hbelow j hj, leastPanel],
    leastPanel_eq_some hq hleast, Option.some_or]

/-- A cursor that considers no panel in any lane reads none. -/
theorem State.readAt_eq_none {s : State} {c : Cursor} (h : ∀ k, s.considered c k = []) :
    s.readAt c = none := by
  rw [State.readAt_eq_findSome?, List.findSome?_eq_none_iff]
  intro k _
  rw [h k, leastPanel]

/-! ### The place of a panel -/

/-- No panel of a list carries the serial of one that stands in a list of other serials. -/
theorem any_serial_eq_false {q : Panel} {ps qs : List Panel} (hq : q ∈ ps)
    (h : ∀ a ∈ ps.map (·.serial), ∀ b ∈ qs.map (·.serial), a ≠ b) :
    qs.any (·.serial == q.serial) = false := by
  rw [List.any_eq_false]
  intro x hx e
  exact h _ (List.mem_map_of_mem hq) _ (List.mem_map_of_mem hx) (eq_of_beq e).symm

/-- Where serials are unique, the place that MAP READ names is the one where the panel stands (R31, R37). -/
theorem State.code_placeOf {s : State} {q : Panel} {place : Nat} (hunique : s.SerialsUnique)
    (hstands : s.Stands q place) : (s.placeOf q).code = place := by
  simp only [State.SerialsUnique, State.residents, List.map_append, List.nodup_append,
    List.mem_append] at hunique
  obtain ⟨⟨-, -, hwaiting⟩, -, houtfeed⟩ := hunique
  match place, hstands with
  | 0, hq =>
    simp [State.placeOf, any_serial_eq_false hq fun a ha => houtfeed a (.inl ha),
      any_serial_eq_false hq hwaiting, Place.code]
  | 1, hq =>
    have hself : s.map.waiting.any (·.serial == q.serial) = true := List.any_of_mem hq (beq_self_eq_true _)
    simp [State.placeOf, any_serial_eq_false hq fun a ha => houtfeed a (.inr ha), hself, Place.code]
  | 2, hq =>
    have hself : s.map.outfeed.any (·.serial == q.serial) = true := List.any_of_mem hq (beq_self_eq_true _)
    simp [State.placeOf, hself, Place.code]

/-! ### The cursor -/

/-- A command that sets the port's cursor and replies does nothing else. -/
theorem leads_setCursor {i : Instr} {p : Port} {s : State} {b : List Byte} {c : Cursor} {r : Reply}
    (hexec : exec i s = .next (((s.markPresent p).setCursor p c).sendReply p b r))
    (h : s.receiving p = true) : Leads i s fun t => s.AnsweredOnly p r.code.code r.body [.map] t ∧
      t.map = { s.map with cursors := s.map.cursors.set p c } :=
  ⟨_, hexec, State.sendReply_answeredOnly b r h (setMap_sameBut _ _) (by decide), rfl⟩

/-! ### MAP SEEK and MAP READ -/

theorem exec_mapSeek (p : Port) (b : List Byte) (s : State) :
    exec (.mapSeek p b) s = takeRequest p .mapSeek b (mapSeekRule p b) s := by rfl

theorem exec_mapRead (p : Port) (b : List Byte) (s : State) :
    exec (.mapRead p b) s = takeRequest p .mapRead b (mapReadRule p b) s := by rfl

section Verdicts

variable {p : Port} {s : State}

theorem mapSeekRule_perform {b : Byte} {k : Lane} (h : b.toNat = laneNumber k) :
    mapSeekRule p [b] s = .perform fun u => u.setCursor p (.start k) := by
  rw [mapSeekRule, bodyLane_of_laneNumber h]

theorem mapSeekRule_badArgument {body : List Byte} (h : bodyLane body = none) :
    mapSeekRule p body s = .refuse .badArgument := by
  rw [mapSeekRule, h]

theorem mapReadRule_accepted {q : Panel} (h : s.readAt (s.map.cursors.get p) = some q) :
    mapReadRule p [] s = .accepted fun u =>
      (u.setCursor p (.coordinate q.lane (q.wLead + 1)), panelBytes q (u.placeOf q)) := by
  simp [mapReadRule, withoutBody, h]

theorem mapReadRule_empty (h : s.readAt (s.map.cursors.get p) = none) :
    mapReadRule p [] s = .refused .empty [] fun u => u.setCursor p .atEnd := by
  simp [mapReadRule, withoutBody, h]

end Verdicts

/-- Settles O22: the cursor's walk is the first lane with a panel to consider, and there the least W_lead. -/
theorem mapSeekAndReadWalkTheMap : Obligations.MapSeekAndReadWalkTheMap := by
  intro p s hrx
  refine ⟨fun b k hk => ?_, fun body hbad => ?_, fun hunique k q place hlane hstands hq hleast hbelow => ?_,
    fun hnone => ?_⟩
  · refine leads_setCursor (b := [b]) (r := ⟨.accepted, []⟩) ?_ hrx
    rw [exec_mapSeek, takeRequest_accepted hrx rfl (mapSeekRule_perform hk),
      State.recordRequest_of_not_joins _ p _ rfl]
  · exact leads_refused (exec_mapSeek p body s) hrx rfl (mapSeekRule_badArgument (bodyLane_eq_none hbad))
  · have hread : (s.markPresent p).readAt ((s.markPresent p).map.cursors.get p) = some q :=
      State.readAt_eq_some hq hleast hbelow
    subst hlane
    rw [← State.code_placeOf hunique hstands, panelReply_code]
    refine leads_setCursor (b := []) (r := ⟨.accepted, panelBytes q (s.placeOf q)⟩) ?_ hrx
    rw [exec_mapRead, takeRequest_accepted hrx rfl (mapReadRule_accepted hread),
      State.recordRequest_of_not_joins _ p _ rfl]
    rfl
  · have hread : (s.markPresent p).readAt ((s.markPresent p).map.cursors.get p) = none :=
      State.readAt_eq_none hnone
    refine leads_setCursor (b := []) (r := ⟨.empty, []⟩) ?_ hrx
    rw [exec_mapRead, takeRequest_refused hrx rfl (mapReadRule_empty hread)]

end Sys2Proof.Machine
end

section
/-! SUPPORT. OUTFEED TAKE (R55): what the outfeed list, the pool reason and the outfeed-full flag are after it, and
the statement about it. -/

namespace Sys2Proof.Machine

/-! ### The outfeed-full flag and the free count -/

/-- The outfeed-full flag is the only part of the panel map that R54 changes. -/
theorem State.checkOutfeedFull_map (s : State) : s.checkOutfeedFull.map =
    { s.map with outfeedFull := decide (24 ≤ s.map.outfeed.length) } := by
  have hkept {b : Bool} (h : s.map.outfeedFull = b) : s.map = { s.map with outfeedFull := b } := by rw [← h]
  unfold State.checkOutfeedFull
  by_cases hlength : 24 ≤ s.map.outfeed.length <;> cases hflag : s.map.outfeedFull <;>
    simp [hlength, State.reportWarning, State.report, State.withdraw, ← hkept hflag]

/-- The panel map and the condition queue are the only parts that R54 changes. -/
theorem checkOutfeedFull_sameBut (s : State) : s.SameBut [.map, .queue] s.checkOutfeedFull := by
  unfold State.checkOutfeedFull
  split <;> split
  · exact (State.SameBut.refl s).mono (by simp)
  · exact (setMap_sameBut s _).trans (setQueue_sameBut _ _)
  · exact (setMap_sameBut s _).trans (setQueue_sameBut _ _)
  · exact (State.SameBut.refl s).mono (by simp)

/-- A flag that clears withdraws its warning (R54, R174). -/
theorem State.checkOutfeedFull_queue_of_clears {s : State} (hflag : s.map.outfeedFull = true)
    (hroom : s.map.outfeed.length < 24) : s.checkOutfeedFull.cnd.queue =
      s.cnd.queue.filter fun r => !(r.cause == .warning .outfeedFull && r.lane == none) := by
  rw [State.checkOutfeedFull, if_neg (Nat.not_le.2 hroom), if_pos hflag]
  rfl

/-- A flag that agrees with the list is left alone (R54). -/
theorem State.checkOutfeedFull_of_follows {s : State} (h : s.OutfeedFlagFollows) : s.checkOutfeedFull = s := by
  rw [State.OutfeedFlagFollows] at h
  unfold State.checkOutfeedFull
  by_cases hlength : 24 ≤ s.map.outfeed.length <;> simp [h, hlength]

/-- The free count follows the lists of the panel map (R37). -/
theorem State.freePanels_eq (s : State) : s.freePanels =
    96 - (s.inLine.length + s.map.waiting.length + s.map.outfeed.length) := by
  simp only [State.freePanels, State.residents, List.length_append]

/-! ### The taking of the oldest record -/

/-- The oldest waiting record, if any, takes the room on the outfeed list (R55). -/
theorem State.fillRoom_eq (s : State) : s.fillRoom = s.setMap { s.map with
    outfeed := s.map.outfeed ++ s.map.waiting.take 1, waiting := s.map.waiting.drop 1 } := by
  unfold State.fillRoom
  split
  · next h =>
    have hkept : s.map = { s.map with outfeed := s.map.outfeed ++ [], waiting := [] } := by
      rw [List.append_nil, ← h]
    rw [h, List.take_nil, List.drop_nil, ← hkept]
    rfl
  · next h => rw [h, List.take_one, List.head?_cons, Option.toList_some, List.drop_one, List.tail_cons]

/-- The state with a record between `pre` and `post` off the outfeed list, and the oldest waiting one at its end. -/
def State.withoutOldest (s : State) (pre post : List Panel) : State :=
  s.setMap { s.map with
    outfeed := pre ++ post ++ s.map.waiting.take 1, waiting := s.map.waiting.drop 1 }

section Taken

variable {s : State} {pre post : List Panel} {q : Panel} {k : Lane}
  (houtfeed : s.map.outfeed = pre ++ q :: post)
include houtfeed

/-- The list still holds 24 just when it was full and a record waited (R52, R55). -/
theorem State.full_withoutOldest_iff (hfit : s.PoolsFit) :
    24 ≤ (s.withoutOldest pre post).map.outfeed.length ↔
      s.map.waiting ≠ [] ∧ s.map.outfeed.length = 24 := by
  obtain ⟨-, hlist, -⟩ := hfit
  have hwaiting : s.map.waiting = [] ∨ 1 ≤ s.map.waiting.length := by
    cases s.map.waiting <;> simp
  simp only [houtfeed, List.length_append, List.length_cons] at hlist
  simp only [State.withoutOldest, State.setMap_map, houtfeed, List.length_append, List.length_cons,
    List.length_take]
  obtain h | h := hwaiting
  · simp only [h, List.length_nil, ne_eq, not_true_eq_false, false_and, iff_false]
    omega
  · have hne : s.map.waiting ≠ [] := List.ne_nil_of_length_pos h
    simp only [ne_eq, hne, not_false_eq_true, true_and]
    omega

/-- One more panel record is free (R37, R55). -/
theorem State.freePanels_withoutOldest (hfit : s.PoolsFit) :
    (s.withoutOldest pre post).freePanels = s.freePanels + 1 := by
  obtain ⟨hresidents, -, -⟩ := hfit
  simp only [State.residents, List.length_append, houtfeed, List.length_cons] at hresidents
  have hline : (s.withoutOldest pre post).inLine = s.inLine := rfl
  rw [State.freePanels_eq, State.freePanels_eq, hline]
  simp only [houtfeed, State.withoutOldest, State.setMap_map,
    List.length_append, List.length_cons, List.length_take, List.length_drop]
  omega

variable (hlane : q.lane = k) (hpre : ∀ x ∈ pre, x.lane ≠ k)
include hlane hpre

/-- The first record of the lane is the one that leaves, before the pool reason and the flag follow (R55). -/
theorem State.takeOutfeed_eq :
    s.takeOutfeed k = (s.withoutOldest pre post).checkPool.checkOutfeedFull := by
  have herase : s.map.outfeed.eraseP (·.lane == k) = pre ++ post := by
    rw [houtfeed, List.eraseP_append_right _ (by simpa using hpre),
      List.eraseP_cons_of_pos (by simpa using hlane)]
  rw [State.takeOutfeed, State.fillRoom_eq, herase]
  rfl

/-- OUTFEED TAKE changes the panel map, the pool reason and the condition queue alone. -/
theorem takeOutfeed_sameBut : s.SameBut [.map, .lpm, .queue] (s.takeOutfeed k) := by
  have hbefore : s.SameBut [.map, .lpm] (s.withoutOldest pre post).checkPool :=
    (setMap_sameBut s _).trans (setLpm_sameBut _ _)
  rw [State.takeOutfeed_eq houtfeed hlane hpre]
  exact (hbefore.trans (checkOutfeedFull_sameBut _)).mono (by decide)

variable (hfit : s.PoolsFit)
include hfit

/-- The panel map after OUTFEED TAKE (R54, R55). -/
theorem State.takeOutfeed_map : (s.takeOutfeed k).map = { s.map with
      outfeed := pre ++ post ++ s.map.waiting.take 1, waiting := s.map.waiting.drop 1,
      outfeedFull := decide (s.map.waiting ≠ [] ∧ s.map.outfeed.length = 24) } := by
  rw [State.takeOutfeed_eq houtfeed hlane hpre, State.checkOutfeedFull_map]
  simp only [State.checkPool, State.setLpm_map, State.full_withoutOldest_iff houtfeed hfit]
  rfl

theorem State.freePanels_takeOutfeed :
    (s.takeOutfeed k).freePanels = s.freePanels + 1 := by
  rw [State.takeOutfeed_eq houtfeed hlane hpre, ← State.freePanels_withoutOldest houtfeed hfit]
  simp only [State.freePanels, State.residents, State.inLine, State.seq, State.checkOutfeedFull_map]
  rfl

/-- The pool reason follows the free count (R16). -/
theorem State.takeOutfeed_lpm : (s.takeOutfeed k).lpm =
      { s.lpm with poolReason := decide (s.freePanels + 1 < s.params.value .poolReserve) } := by
  rw [State.takeOutfeed_eq houtfeed hlane hpre, checkOutfeedFull_sameBut _ .lpm (by decide),
    ← State.freePanels_withoutOldest houtfeed hfit]
  rfl

/-- A warning of a list that was full with no record waiting is withdrawn (R54, R174). -/
theorem State.takeOutfeed_queue_of_clears (hflag : s.map.outfeedFull = true)
    (hwaiting : s.map.waiting = []) : (s.takeOutfeed k).cnd.queue =
      s.cnd.queue.filter fun r => !(r.cause == .warning .outfeedFull && r.lane == none) := by
  have hroom : ¬24 ≤ (s.withoutOldest pre post).map.outfeed.length := fun h =>
    ((State.full_withoutOldest_iff houtfeed hfit).1 h).1 hwaiting
  rw [State.takeOutfeed_eq houtfeed hlane hpre]
  exact State.checkOutfeedFull_queue_of_clears hflag (Nat.not_le.1 hroom)

/-- Where the flag agrees with the list, and does not clear, no record is placed or withdrawn (R54). -/
theorem State.takeOutfeed_queue_of_follows (hfollows : s.OutfeedFlagFollows)
    (hstays : s.map.outfeedFull = false ∨ s.map.waiting ≠ []) :
    (s.takeOutfeed k).cnd.queue = s.cnd.queue := by
  have hflag : s.map.outfeedFull = decide (24 ≤ (s.withoutOldest pre post).map.outfeed.length) := by
    simp only [State.full_withoutOldest_iff houtfeed hfit]
    obtain ⟨-, -, hwaits⟩ := hfit
    have hlist : s.map.outfeedFull = decide (24 ≤ s.map.outfeed.length) := hfollows
    obtain hclear | hwaiting := hstays
    · have hshort : ¬24 ≤ s.map.outfeed.length := of_decide_eq_false (hlist.symm.trans hclear)
      have hnotfull : s.map.outfeed.length ≠ 24 := by omega
      simp [hclear, hnotfull]
    · simp [hlist, hwaiting, hwaits hwaiting]
  rw [State.takeOutfeed_eq houtfeed hlane hpre,
    State.checkOutfeedFull_of_follows (s := (s.withoutOldest pre post).checkPool) hflag]
  rfl

end Taken

/-! ### OUTFEED TAKE -/

theorem exec_outfeedTake (p : Port) (b : List Byte) (s : State) :
    exec (.outfeedTake p b) s = takeRequest p .outfeedTake b (outfeedTakeRule p b) s := by rfl

section Verdicts

variable {p : Port} {s : State}

theorem outfeedTakeRule_badArgument {body : List Byte} (h : bodyLane body = none) :
    outfeedTakeRule p body s = .refuse .badArgument := by
  rw [outfeedTakeRule, h]

theorem outfeedTakeRule_empty {b : Byte} {k : Lane} (hk : b.toNat = laneNumber k)
    (hnone : ∀ x ∈ s.map.outfeed, x.lane ≠ k) : outfeedTakeRule p [b] s = .refuse .empty := by
  have hfind : s.map.outfeed.find? (·.lane == k) = none := by simpa using hnone
  simp [outfeedTakeRule, bodyLane_of_laneNumber hk, hfind]

theorem outfeedTakeRule_accepted {b : Byte} {k : Lane} {pre post : List Panel} {q : Panel}
    (hk : b.toNat = laneNumber k) (houtfeed : s.map.outfeed = pre ++ q :: post) (hlane : q.lane = k)
    (hpre : ∀ x ∈ pre, x.lane ≠ k) : outfeedTakeRule p [b] s =
      .accepted fun u => (u.takeOutfeed k, panelBytes q .outfeedList) := by
  have hfind : s.map.outfeed.find? (·.lane == k) = some q := by
    rw [List.find?_eq_some_iff_append]
    exact ⟨by simpa using hlane, pre, post, houtfeed, by simpa using hpre⟩
  simp [outfeedTakeRule, bodyLane_of_laneNumber hk, hfind]

end Verdicts

/-- Settles O48: the effects of OUTFEED TAKE one after the other, on the state that has joined the history. -/
theorem outfeedTakeFreesTheOldest : Obligations.OutfeedTakeFreesTheOldest := by
  refine ⟨fun body s hrx hbad => ?_, fun b k s hrx hk =>
    ⟨fun pre post q houtfeed hlane hpre hfit => ?_, fun hnone => ?_⟩⟩
  · exact leads_refused (exec_outfeedTake .fp body s) hrx rfl
      (outfeedTakeRule_badArgument (bodyLane_eq_none hbad))
  · let joined := (s.markPresent .fp).recordRequest .fp .outfeedTake [b]
    rw [show panelReply 2 q = panelBytes q .outfeedList from panelReply_code .outfeedList q]
    refine leads_performed (exec_outfeedTake .fp [b] s) hrx rfl rfl
      (outfeedTakeRule_accepted hk houtfeed hlane hpre) rfl
      (takeOutfeed_sameBut (s := joined) houtfeed hlane hpre) (by decide) ?_
    exact ⟨State.takeOutfeed_map (s := joined) houtfeed hlane hpre hfit,
      State.freePanels_takeOutfeed (s := joined) houtfeed hlane hpre hfit,
      State.takeOutfeed_lpm (s := joined) houtfeed hlane hpre hfit,
      State.takeOutfeed_queue_of_clears (s := joined) houtfeed hlane hpre hfit,
      State.takeOutfeed_queue_of_follows (s := joined) houtfeed hlane hpre hfit⟩
  · exact leads_refused (exec_outfeedTake .fp [b] s) hrx rfl (outfeedTakeRule_empty hk hnone)

end Sys2Proof.Machine
end

section
/-! SUPPORT. What requests on one knife share: the numbers that a body carries, the body of a WRONG STATE refusal,
and the answers that only tell something or that change one knife alone. -/

namespace Sys2Proof.Machine

/-! ### Numbers in a body -/

@[simp] theorem length_bigEndian (n v : Nat) : (bigEndian n v).length = n := by
  induction n generalizing v with
  | zero => rfl
  | succ n ih => simp [bigEndian, ih]

/-- A number that fits its bytes is read back from them. -/
theorem beNat_bigEndian {n v : Nat} (h : v < 256 ^ n) : beNat (bigEndian n v) = v := by
  induction n generalizing v with
  | zero => simp only [pow_zero, Nat.lt_one_iff] at h; rw [h]; rfl
  | succ n ih =>
    have hhigh : beNat (bigEndian n (v / 256)) = v / 256 := ih (by omega)
    simp only [beNat] at hhigh
    simp only [beNat, bigEndian, List.foldl_append, hhigh, List.foldl_cons, List.foldl_nil, byteOf,
      BitVec.toNat_ofNat]
    omega

/-- A number of `n` bytes behind `i` others is the field there. -/
theorem field_bigEndian {pre post : List Byte} {i n v : Nat} (hi : pre.length = i) (hv : v < 256 ^ n) :
    field (pre ++ bigEndian n v ++ post) i n = v := by
  rw [field, List.append_assoc, List.drop_left' hi, List.take_left' (length_bigEndian n v),
    beNat_bigEndian hv]

/-! ### Answers -/

/-- The names of a knife state and of a line state in a refusal are those of Table 10-9. -/
theorem knifeStateBody_eq (n : KnifeState) : knifeStateBody n = namedState 3 n.code := rfl

theorem lineStateBody_eq (l : LineState) : lineStateBody l = namedState 1 l.code := rfl

/-- A refusal that names the state of a knife only replies (R183). -/
theorem leads_wrongKnife {i : Instr} {p : Port} {r : Request} {b : List Byte} {rule : State → Verdict}
    {s : State} {k : Lane} (hexec : exec i s = takeRequest p r b rule s) (h : s.receiving p = true)
    (ha : r.allowed p = true) (hv : rule (s.markPresent p) = s.wrongKnife k) :
    Leads i s (s.AnsweredOnly p 0x06 (namedState 3 (s.knife k).state.code) []) := by
  rw [← knifeStateBody_eq]
  exact leads_refused hexec h ha hv

/-- A request outside the history that only tells something replies, and changes nothing else. -/
theorem leads_told {i : Instr} {p : Port} {r : Request} {b reply : List Byte} {rule : State → Verdict}
    {s : State} (hexec : exec i s = takeRequest p r b rule s) (h : s.receiving p = true)
    (ha : r.allowed p = true) (hjoins : r.joinsHistory = false)
    (hv : rule (s.markPresent p) = .tell reply) : Leads i s (s.AnsweredOnly p 0x00 reply []) := by
  refine ⟨_, hexec.trans (takeRequest_accepted h ha hv), ?_⟩
  rw [State.recordRequest_of_not_joins _ p b hjoins]
  exact State.sendReply_answeredOnly b ⟨.accepted, reply⟩ h (State.SameBut.refl _) (by decide)

theorem setKnife_sameBut (s : State) (k : Lane) (n : Knife) : s.SameBut [.knc] (s.setKnife k n) := by
  intro x hx
  cases x <;> first | rfl | exact absurd (List.mem_singleton.2 rfl) hx

/-- A request that is accepted with knife `k` as `g` makes it performs that, and changes nothing else. -/
theorem leads_performed_setKnife {i : Instr} {p : Port} {r : Request} {b : List Byte}
    {rule : State → Verdict} {s : State} {k : Lane} {g : State → Knife} {n : Knife}
    (hexec : exec i s = takeRequest p r b rule s) (h : s.receiving p = true)
    (ha : r.allowed p = true) (hjoins : r.joinsHistory = true)
    (hv : rule (s.markPresent p) = .perform fun u => u.setKnife k (g u))
    (hg : g ((s.markPresent p).recordRequest p r b) = n) :
    Leads i s fun t => s.Performed p r.kind b [] [.knc] t ∧
      t.knc = { knives := s.knc.knives.set k n } := by
  refine leads_performed hexec h ha hjoins hv rfl (setKnife_sameBut _ k _) (by decide) ?_
  have hknc : ((s.markPresent p).recordRequest p r b).knc = s.knc :=
    recordRequest_sameBut (s.markPresent p) p r b .knc (by decide)
  subst hg
  exact congrArg (fun c : Knc => ({ knives := c.knives.set k _ } : Knc)) hknc

end Sys2Proof.Machine
end

section
/-! SUPPORT. KNIFE DISABLE, ENABLE and RESET (R116 to R119, Table 6-1): their rules by knife state, and the
statement about them. -/

namespace Sys2Proof.Machine

theorem exec_knifeDisable (p : Port) (b : List Byte) (s : State) :
    exec (.knifeDisable p b) s = takeRequest p .knifeDisable b (knifeDisableRule p b) s := by rfl

theorem exec_knifeEnable (p : Port) (b : List Byte) (s : State) :
    exec (.knifeEnable p b) s = takeRequest p .knifeEnable b (knifeEnableRule p b) s := by rfl

theorem exec_knifeReset (p : Port) (b : List Byte) (s : State) :
    exec (.knifeReset p b) s = takeRequest p .knifeReset b (knifeResetRule p b) s := by rfl

/-! ### A body that names no knife -/

section NoKnife

variable {p : Port} {body : List Byte} {s : State}

theorem knifeDisableRule_badArgument (h : bodyLane body = none) :
    knifeDisableRule p body s = .refuse .badArgument := by
  rw [knifeDisableRule, h]

theorem knifeEnableRule_badArgument (h : bodyLane body = none) :
    knifeEnableRule p body s = .refuse .badArgument := by
  rw [knifeEnableRule, h]

theorem knifeResetRule_badArgument (h : bodyLane body = none) :
    knifeResetRule p body s = .refuse .badArgument := by
  rw [knifeResetRule, h]

end NoKnife

/-! ### Table 6-1 -/

section Verdicts

variable {p : Port} {b : Byte} {k : Lane} {s : State} (hk : b.toNat = laneNumber k)
include hk

theorem knifeDisableRule_idle (h : (s.knife k).state = .ready ∨ (s.knife k).state = .fault) :
    knifeDisableRule p [b] s = .perform fun u => u.setKnifeState k .disabled := by
  obtain h | h := h <;> simp only [knifeDisableRule, bodyLane_of_laneNumber hk, h]

theorem knifeDisableRule_stroke {r : Stroke} (h : (s.knife k).state = .stroke r) :
    knifeDisableRule p [b] s = .perform fun u => u.setDisablePending k true := by
  simp only [knifeDisableRule, bodyLane_of_laneNumber hk, h]

theorem knifeDisableRule_disabled (h : (s.knife k).state = .disabled) :
    knifeDisableRule p [b] s = s.wrongKnife k := by
  simp only [knifeDisableRule, bodyLane_of_laneNumber hk, h]

theorem knifeEnableRule_atHome (h : (s.knife k).state = .disabled) (hhome : (s.knife k).home = true) :
    knifeEnableRule p [b] s = .perform fun u => u.setKnifeState k .ready := by
  simp only [knifeEnableRule, bodyLane_of_laneNumber hk, h, hhome, if_true]

theorem knifeEnableRule_away (h : (s.knife k).state = .disabled) (hhome : (s.knife k).home = false) :
    knifeEnableRule p [b] s = .refuse .notAtHome := by
  simp only [knifeEnableRule, bodyLane_of_laneNumber hk, h, hhome, Bool.false_eq_true, if_false]

theorem knifeEnableRule_pending {r : Stroke} (h : (s.knife k).state = .stroke r)
    (hpending : (s.knife k).disablePending = true) :
    knifeEnableRule p [b] s = .perform fun u => u.setDisablePending k false := by
  simp only [knifeEnableRule, bodyLane_of_laneNumber hk, h, hpending, if_true]

theorem knifeEnableRule_notPending {r : Stroke} (h : (s.knife k).state = .stroke r)
    (hpending : (s.knife k).disablePending = false) : knifeEnableRule p [b] s = s.wrongKnife k := by
  simp only [knifeEnableRule, bodyLane_of_laneNumber hk, h, hpending, Bool.false_eq_true, if_false]

theorem knifeEnableRule_idle (h : (s.knife k).state = .ready ∨ (s.knife k).state = .fault) :
    knifeEnableRule p [b] s = s.wrongKnife k := by
  obtain h | h := h <;> simp only [knifeEnableRule, bodyLane_of_laneNumber hk, h]

theorem knifeResetRule_atHome (h : (s.knife k).state = .fault) (hhome : (s.knife k).home = true) :
    knifeResetRule p [b] s = .perform fun u => u.setKnifeState k .ready := by
  simp only [knifeResetRule, bodyLane_of_laneNumber hk, h, hhome, if_true]

theorem knifeResetRule_away (h : (s.knife k).state = .fault) (hhome : (s.knife k).home = false) :
    knifeResetRule p [b] s = .refuse .notAtHome := by
  simp only [knifeResetRule, bodyLane_of_laneNumber hk, h, hhome, Bool.false_eq_true, if_false]

theorem knifeResetRule_of_ne_fault (h : (s.knife k).state ≠ .fault) :
    knifeResetRule p [b] s = s.wrongKnife k := by
  cases hstate : (s.knife k).state with
  | fault => exact absurd hstate h
  | ready | stroke _ | disabled => simp only [knifeResetRule, bodyLane_of_laneNumber hk, hstate]

end Verdicts

/-- Settles O46: one cell of Table 6-1 after the other. -/
theorem knifeRequestsFollowTheTable : Obligations.KnifeRequestsFollowTheTable := by
  refine ⟨fun body s hrx hbad => ?_, fun b k s hrx hk => ?_⟩
  · have hnone := bodyLane_eq_none hbad
    exact ⟨leads_refused (exec_knifeDisable .fp body s) hrx rfl (knifeDisableRule_badArgument hnone),
      leads_refused (exec_knifeEnable .fp body s) hrx rfl (knifeEnableRule_badArgument hnone),
      leads_refused (exec_knifeReset .fp body s) hrx rfl (knifeResetRule_badArgument hnone)⟩
  have hdisable := exec_knifeDisable .fp [b] s
  have henable := exec_knifeEnable .fp [b] s
  have hreset := exec_knifeReset .fp [b] s
  refine ⟨fun h => ?_, fun r h => ?_, fun h => ?_, fun h hhome => ?_, fun h hhome => ?_,
    fun r h hpending => ?_, fun r h hpending => ?_, fun h => ?_, fun h hhome => ?_, fun h hhome => ?_,
    fun h => ?_⟩
  · exact leads_performed_setKnife hdisable hrx rfl rfl (knifeDisableRule_idle hk h) rfl
  · exact leads_performed_setKnife hdisable hrx rfl rfl (knifeDisableRule_stroke hk h) rfl
  · exact leads_wrongKnife hdisable hrx rfl (knifeDisableRule_disabled hk h)
  · exact leads_performed_setKnife henable hrx rfl rfl (knifeEnableRule_atHome hk h hhome) rfl
  · exact leads_refused henable hrx rfl (knifeEnableRule_away hk h hhome)
  · exact leads_performed_setKnife henable hrx rfl rfl (knifeEnableRule_pending hk h hpending) rfl
  · exact leads_wrongKnife henable hrx rfl (knifeEnableRule_notPending hk h hpending)
  · exact leads_wrongKnife henable hrx rfl (knifeEnableRule_idle hk h)
  · exact leads_performed_setKnife hreset hrx rfl rfl (knifeResetRule_atHome hk h hhome) rfl
  · exact leads_refused hreset hrx rfl (knifeResetRule_away hk h hhome)
  · exact leads_wrongKnife hreset hrx rfl (knifeResetRule_of_ne_fault hk h)

end Sys2Proof.Machine
end

section
/-! SUPPORT. The wear attributes on the wire (Table 10-12), the tests of both rows (R123) said once, and ATTRIBUTE
READ, RESET and LOAD (R126 to R128) with the statement about them. -/

namespace Sys2Proof.Machine

/-! ### The wear rows on the wire -/

theorem be1_bit (x : Bool) : be1 (bit x) = flagByte x := by cases x <;> rfl

theorem be1_flagNat (x : Bool) : be1 (flagNat x) = flagByte x := by cases x <;> rfl

/-- The reply of ATTRIBUTE READ is Table 10-12, field by field. -/
theorem State.attributeReply_eq (s : State) (k : Lane) : s.attributeReply k = s.attributeBytes k := by
  simp only [State.attributeReply, State.attributeBytes, fieldBytes_cons, fieldBytes_nil, bigEndian_one,
    bigEndian_three, Params.value, be1_bit, be1_flagNat, List.append_assoc, List.append_nil]
  cases (s.knife k).lastDuration <;> rfl

/-! ### The tests of the rows -/

/-- Records placed in two lots are placed one after the other (R170). -/
theorem placeAll_append (rs rs' q : List Record) : placeAll (rs ++ rs') q = placeAll rs' (placeAll rs q) := by
  induction rs generalizing q with
  | nil => rfl
  | cons r rs ih => exact ih _

/-- The pre-failure flags of G4 as the statements read them, as values 1. -/
theorem Params.lifeFlag_eq_one (ps : Params) (k : Lane) :
    decide (ps.value (.lifeFlag k) = 1) = ps.g4.lifePreFailure.get k := by
  cases h : ps.g4.lifePreFailure.get k <;> simp [Params.value, h, flagNat]

theorem Params.timeFlag_eq_one (ps : Params) (k : Lane) :
    decide (ps.value (.timeFlag k) = 1) = ps.g4.timePreFailure.get k := by
  cases h : ps.g4.timePreFailure.get k <;> simp [Params.value, h, flagNat]

/-- The KNIFE WEAR record that a fall of knife `k` places (R123). -/
def State.wearRecord (s : State) (k : Lane) (detail : Nat) : Record :=
  newRecord (.degradation .knifeWear) (some k) none (some s.mot.l) (some detail)

/-- STROKE LIFE falls to its threshold for the first time (R123). -/
def Knife.lifeFalls (n : Knife) (ps : Params) (k : Lane) : Bool :=
  decide (n.lifeN ≤ ps.value (.lifeThreshold k)) && !n.lifeLatch

/-- STROKE TIME falls to its threshold for the first time (R123). -/
def Knife.timeFalls (n : Knife) (ps : Params) (k : Lane) : Bool :=
  decide (n.timeN ≤ ps.value (.timeThreshold k)) && !n.timeLatch

/-- The knife with its STROKE LIFE row tested (R123). -/
def Knife.lifeTested (n : Knife) (ps : Params) (k : Lane) : Knife :=
  { n with
    lifeWorst := min n.lifeWorst n.lifeN, lifeLatch := n.lifeLatch || n.lifeFalls ps k
    preFail := n.preFail || (n.lifeFalls ps k && decide (ps.value (.lifeFlag k) = 1)) }

/-- The knife with its STROKE TIME row tested (R123). -/
def Knife.timeTested (n : Knife) (ps : Params) (k : Lane) : Knife :=
  { n with
    timeWorst := min n.timeWorst n.timeN, timeLatch := n.timeLatch || n.timeFalls ps k
    preFail := n.preFail || (n.timeFalls ps k && decide (ps.value (.timeFlag k) = 1)) }

/-- The record of the STROKE LIFE test, if there is one (R123). -/
def State.lifeRecords (s : State) (k : Lane) (n : Knife) : List Record :=
  if n.lifeFalls s.params k then [s.wearRecord k (1000 + n.lifeN)] else []

/-- The record of the STROKE TIME test, if there is one (R123). -/
def State.timeRecords (s : State) (k : Lane) (n : Knife) : List Record :=
  if n.timeFalls s.params k then [s.wearRecord k (2000 + n.timeN)] else []

/-- The test of STROKE LIFE marks the knife and places its record, and does nothing else (R123). -/
theorem State.testLife_setKnife (s : State) (k : Lane) (n : Knife) : (s.setKnife k n).testLife k =
    (s.setQueue (placeAll (s.lifeRecords k n) s.cnd.queue)).setKnife k (n.lifeTested s.params k) := by
  have hfalls : (n.lifeN ≤ s.params.g4.lifeThreshold.get k ∧ n.lifeLatch = false) ↔
      n.lifeFalls s.params k = true := by
    rw [Knife.lifeFalls, Bool.and_eq_true, decide_eq_true_iff, Bool.not_eq_true']
    exact Iff.rfl
  have hparams : (s.setKnife k n).params = s.params := rfl
  simp only [State.testLife, State.knife_setKnife_same, State.setKnife_setKnife, hparams, hfalls]
  rw [Knife.lifeTested, State.lifeRecords, Params.lifeFlag_eq_one]
  split
  · next h =>
    rw [h, Bool.or_true, Bool.true_and]
    rfl
  · next h =>
    rw [Bool.not_eq_true] at h
    rw [h, Bool.or_false, Bool.false_and, Bool.or_false]
    rfl

/-- The test of STROKE TIME marks the knife and places its record, and does nothing else (R123). -/
theorem State.testTime_setKnife (s : State) (k : Lane) (n : Knife) : (s.setKnife k n).testTime k =
    (s.setQueue (placeAll (s.timeRecords k n) s.cnd.queue)).setKnife k (n.timeTested s.params k) := by
  have hfalls : (n.timeN ≤ s.params.g4.timeThreshold.get k ∧ n.timeLatch = false) ↔
      n.timeFalls s.params k = true := by
    rw [Knife.timeFalls, Bool.and_eq_true, decide_eq_true_iff, Bool.not_eq_true']
    exact Iff.rfl
  have hparams : (s.setKnife k n).params = s.params := rfl
  simp only [State.testTime, State.knife_setKnife_same, State.setKnife_setKnife, hparams, hfalls]
  rw [Knife.timeTested, State.timeRecords, Params.timeFlag_eq_one]
  split
  · next h =>
    rw [h, Bool.or_true, Bool.true_and]
    rfl
  · next h =>
    rw [Bool.not_eq_true] at h
    rw [h, Bool.or_false, Bool.false_and, Bool.or_false]
    rfl

/-! ### ATTRIBUTE LOAD -/

section Load

variable (s : State) (k : Lane) (strokes mean last : Nat)

/-- Knife `k` with both rows loaded and tested, both latches clear before the tests (R128). -/
def State.loadedKnife : Knife :=
  let n := (s.knife k).loadedRows s.params.g4 strokes mean last
  let lifeFalls := decide (n.lifeN ≤ s.params.value (.lifeThreshold k))
  let timeFalls := decide (n.timeN ≤ s.params.value (.timeThreshold k))
  { n with
    lifeLatch := lifeFalls, timeLatch := timeFalls
    preFail := lifeFalls && decide (s.params.value (.lifeFlag k) = 1) ||
      timeFalls && decide (s.params.value (.timeFlag k) = 1) }

/-- The records that a load of knife `k` places, STROKE LIFE first (R128). -/
def State.loadRecords : List Record :=
  let n := (s.knife k).loadedRows s.params.g4 strokes mean last
  (if decide (n.lifeN ≤ s.params.value (.lifeThreshold k)) then [s.wearRecord k (1000 + n.lifeN)] else []) ++
    if decide (n.timeN ≤ s.params.value (.timeThreshold k)) then [s.wearRecord k (2000 + n.timeN)] else []

/-- A loaded knife is one whose rows have been tested from clear latches, STROKE LIFE first. -/
theorem State.tested_loadedRows :
    (((s.knife k).loadedRows s.params.g4 strokes mean last).lifeTested s.params k).timeTested s.params k =
      s.loadedKnife k strokes mean last := by
  simp only [Knife.timeTested, Knife.lifeTested, Knife.timeFalls, Knife.lifeFalls, State.loadedKnife,
    Knife.loadedRows, Bool.not_false, Bool.and_true, Bool.false_or, min_self]
  rfl

/-- The records of those two tests are the ones of the load. -/
theorem State.records_loadedRows :
    s.lifeRecords k ((s.knife k).loadedRows s.params.g4 strokes mean last) ++
      s.timeRecords k (((s.knife k).loadedRows s.params.g4 strokes mean last).lifeTested s.params k) =
      s.loadRecords k strokes mean last := by
  simp only [State.lifeRecords, State.timeRecords, Knife.lifeTested, Knife.timeFalls, Knife.lifeFalls,
    State.loadRecords, Knife.loadedRows, Bool.not_false, Bool.and_true]
  rfl

/-- ATTRIBUTE LOAD's effect: one knife, and the records of the two tests (R128). -/
theorem State.loadAttributes_eq : s.loadAttributes k strokes mean last =
    (s.setQueue (placeAll (s.loadRecords k strokes mean last) s.cnd.queue)).setKnife k
      (s.loadedKnife k strokes mean last) := by
  rw [State.loadAttributes, State.testLife_setKnife, State.testTime_setKnife, ← State.tested_loadedRows,
    ← State.records_loadedRows, placeAll_append]
  rfl

theorem State.loadAttributes_knc : (s.loadAttributes k strokes mean last).knc =
    { knives := s.knc.knives.set k (s.loadedKnife k strokes mean last) } := by
  rw [State.loadAttributes_eq]
  rfl

theorem State.loadAttributes_queue : (s.loadAttributes k strokes mean last).cnd.queue =
    placeAll (s.loadRecords k strokes mean last) s.cnd.queue := by
  rw [State.loadAttributes_eq]
  rfl

theorem loadAttributes_sameBut : s.SameBut [.knc, .queue] (s.loadAttributes k strokes mean last) := by
  rw [State.loadAttributes_eq]
  exact ((setQueue_sameBut s _).trans (setKnife_sameBut _ k _)).mono (by decide)

end Load

/-- The body of an ATTRIBUTE LOAD (Table 10-1). -/
def loadBody (b : Byte) (strokes mean last : Nat) : List Byte :=
  [b] ++ bigEndian 3 strokes ++ bigEndian 3 mean ++ bigEndian 3 last

/-! ### The rules -/

theorem exec_attributeRead (p : Port) (b : List Byte) (s : State) :
    exec (.attributeRead p b) s = takeRequest p .attributeRead b (attributeReadRule p b) s := by rfl

theorem exec_attributeReset (p : Port) (b : List Byte) (s : State) :
    exec (.attributeReset p b) s = takeRequest p .attributeReset b (attributeResetRule p b) s := by rfl

theorem exec_attributeLoad (p : Port) (b : List Byte) (s : State) :
    exec (.attributeLoad p b) s = takeRequest p .attributeLoad b (attributeLoadRule p b) s := by rfl

section Verdicts

variable {p : Port} {b : Byte} {k : Lane} {s : State} (hk : b.toNat = laneNumber k)
include hk

theorem attributeReadRule_tell : attributeReadRule p [b] s = .tell (s.attributeReply k) := by
  rw [State.attributeReply_eq, attributeReadRule, bodyLane_of_laneNumber hk]

theorem attributeResetRule_perform : attributeResetRule p [b] s = .perform fun u =>
    u.setKnife k ((u.knife k).freshRows u.params.g4.nominalStrokeTime) := by
  rw [attributeResetRule, bodyLane_of_laneNumber hk]

variable {strokes mean last : Nat} (hstrokes : strokes < 16777216) (hmean : mean < 16777216)
  (hlast : last < 16777216)
include hstrokes hmean hlast

/-- The order of the checks on a body that carries the three values (R128). -/
theorem attributeLoadRule_loadBody : attributeLoadRule p (loadBody b strokes mean last) s =
    if 100000 < mean ∨ 100000 < last then .refuse .badArgument
    else if s.lnc.line ≠ .offline then .wrong (lineStateBody s.lnc.line)
    else if (s.knife k).state.isStroke then s.wrongKnife k
    else .perform fun u => u.loadAttributes k strokes mean last := by
  have hlength : (loadBody b strokes mean last).length = 10 := by simp [loadBody]
  have hknife : laneOf (field (loadBody b strokes mean last) 0 1) = some k := by
    rw [loadBody, List.append_assoc, List.append_assoc, List.singleton_append, field_head, hk,
      laneOf_laneNumber]
  have hfirst : field (loadBody b strokes mean last) 1 3 = strokes := by
    rw [loadBody, List.append_assoc]
    exact field_bigEndian rfl hstrokes
  have hsecond : field (loadBody b strokes mean last) 4 3 = mean := field_bigEndian (by simp) hmean
  have hthird : field (loadBody b strokes mean last) 7 3 = last := by
    rw [← List.append_nil (loadBody b strokes mean last)]
    exact field_bigEndian (by simp) hlast
  simp only [attributeLoadRule, hlength, if_true, hknife, hfirst, hsecond, hthird]

theorem attributeLoadRule_badArgument (h : 100000 < mean ∨ 100000 < last) :
    attributeLoadRule p (loadBody b strokes mean last) s = .refuse .badArgument := by
  rw [attributeLoadRule_loadBody hk hstrokes hmean hlast, if_pos h]

variable (hfits : ¬(100000 < mean ∨ 100000 < last))
include hfits

theorem attributeLoadRule_wrongLine (hline : s.lnc.line ≠ .offline) :
    attributeLoadRule p (loadBody b strokes mean last) s = .wrong (lineStateBody s.lnc.line) := by
  rw [attributeLoadRule_loadBody hk hstrokes hmean hlast, if_neg hfits, if_pos hline]

theorem attributeLoadRule_wrongKnife (hline : s.lnc.line = .offline) {r : Stroke}
    (h : (s.knife k).state = .stroke r) :
    attributeLoadRule p (loadBody b strokes mean last) s = s.wrongKnife k := by
  have hstroke : (s.knife k).state.isStroke = true := by rw [h]; rfl
  rw [attributeLoadRule_loadBody hk hstrokes hmean hlast, if_neg hfits, if_neg (not_not.2 hline),
    if_pos hstroke]

theorem attributeLoadRule_perform (hline : s.lnc.line = .offline)
    (h : ∀ r, (s.knife k).state ≠ .stroke r) : attributeLoadRule p (loadBody b strokes mean last) s =
      .perform fun u => u.loadAttributes k strokes mean last := by
  have hstroke : ¬(s.knife k).state.isStroke = true := by
    cases hstate : (s.knife k).state with
    | stroke r => exact absurd hstate (h r)
    | ready | fault | disabled => exact Bool.false_ne_true
  rw [attributeLoadRule_loadBody hk hstrokes hmean hlast, if_neg hfits, if_neg (not_not.2 hline),
    if_neg hstroke]

end Verdicts

/-- Settles O47: the tests of the two rows one after the other, on the state that has joined the history. -/
theorem attributesAreReadResetAndLoaded : Obligations.AttributesAreReadResetAndLoaded := by
  intro b k s hrx hk
  refine ⟨leads_told (exec_attributeRead .jp [b] s) hrx rfl rfl (attributeReadRule_tell hk),
    leads_performed_setKnife (exec_attributeReset .jp [b] s) hrx rfl rfl (attributeResetRule_perform hk) rfl,
    fun strokes mean last hstrokes hmean hlast => ?_⟩
  have hexec := exec_attributeLoad .jp (loadBody b strokes mean last) s
  refine ⟨fun h => ?_, fun hmeanFits hlastFits => ?_⟩
  · exact leads_refused hexec hrx rfl (attributeLoadRule_badArgument hk hstrokes hmean hlast h)
  have hfits : ¬(100000 < mean ∨ 100000 < last) := by omega
  refine ⟨fun hline => ?_, fun r hline h => ?_, fun hline h => ?_⟩
  · exact leads_refused hexec hrx rfl (attributeLoadRule_wrongLine hk hstrokes hmean hlast hfits hline)
  · have hwrong := leads_wrongKnife hexec hrx rfl
      (attributeLoadRule_wrongKnife hk hstrokes hmean hlast hfits hline h)
    rwa [h] at hwrong
  · let joined := (s.markPresent .jp).recordRequest .jp .attributeLoad (loadBody b strokes mean last)
    refine leads_performed hexec hrx rfl rfl
      (attributeLoadRule_perform hk hstrokes hmean hlast hfits hline h) rfl
      (loadAttributes_sameBut joined k strokes mean last) (by decide) ?_
    have hreply := sendReply_sameBut (joined.loadAttributes k strokes mean last) .jp
      (loadBody b strokes mean last) ⟨.accepted, []⟩
    exact ⟨(hreply .knc (by decide)).trans (State.loadAttributes_knc joined k strokes mean last),
      (hreply .queue (by decide)).trans (State.loadAttributes_queue joined k strokes mean last)⟩

end Sys2Proof.Machine
end

section
/-! SUPPORT. The condition unit at its ports (9.2, 9.4, 9.6): when a record is deliverable, which one a port is
given and what a take leaves of it, the record on the wire (Table 10-8), and CONDITION TAKE and PEEK. -/

namespace Sys2Proof.Machine

/-! ### The record on the wire -/

theorem bit_eq_flagNat (x : Bool) : bit x = flagNat x := by cases x <;> rfl

theorem be1_laneOrNone (k : Option Lane) : be1 (laneOrNone k) = laneByte k := by cases k <;> rfl

theorem be4_twos (i : Int) : be4 (twos 4 i) = intBytes4 i := rfl

/-- The record of a reply is the one of Table 10-8. -/
theorem conditionReply_eq (remaining : Nat) (r : Record) :
    conditionReply remaining r = recordBytes remaining r := by
  have hsecondary : fieldBytes (r.secondary.map fun c => (1, c.code)) =
      r.secondary.flatMap fun c => be1 c.code := by
    rw [fieldBytes, List.flatMap_map]
    rfl
  simp only [conditionReply, recordBytes, Record.modifierBits, Record.validityBits, fieldBytes_append,
    fieldBytes_cons, fieldBytes_nil, hsecondary, bigEndian_one, bigEndian_two, bigEndian_four,
    bit_eq_flagNat, be1_laneOrNone, be4_twos, wordBytes, List.append_assoc, List.nil_append]

/-! ### Delivery -/

/-- The rule of each class (R167 to R169) is the test by which the queue is searched. -/
theorem Cnd.delivers_eq_deliverable (c : Cnd) : c.delivers = c.deliverable := by
  funext p r
  rcases r with ⟨cause⟩
  cases cause with
  | access a => exact (Bool.beq_eq_decide_eq _ _).symm
  | lineDamage | laneDamage | panelLoss | degradation | planNotice | warning | recovery => rfl

/-! ### What a take leaves of a record -/

theorem PerPort.anyTrue_iff {t : PerPort Bool} : t.anyTrue = true ↔ ∃ x, t.get x = true := by
  constructor
  · intro h
    rcases t with ⟨pp, fp, jp⟩
    simp only [PerPort.anyTrue, Bool.or_eq_true] at h
    rcases h with (h | h) | h
    exacts [⟨.pp, h⟩, ⟨.fp, h⟩, ⟨.jp, h⟩]
  · rintro ⟨x, h⟩
    cases x <;> simp_all [PerPort.anyTrue, PerPort.get]

/-- Some port is still owed a record that a take at `p` no longer owes to `p` (R168). -/
theorem PerPort.anyTrue_set_false_iff {t : PerPort Bool} {p : Port} :
    (t.set p false).anyTrue = true ↔ ∃ x, x ≠ p ∧ t.get x = true := by
  simp [PerPort.anyTrue_iff, PerPort.get_set]

/-- The record is a LINE DAMAGE record that a port other than `p` is owed (R168). -/
def Record.OwedBeside (r : Record) (p : Port) : Prop :=
  ∃ c x, r.cause = .lineDamage c ∧ x ≠ p ∧ r.owed.get x = true

theorem Record.afterTake_of_owed {r : Record} {p : Port} (h : r.OwedBeside p) :
    r.afterTake p = some { r with owed := r.owed.set p false } := by
  obtain ⟨c, x, hcause, hne, howed⟩ := h
  have hany : (r.owed.set p false).anyTrue = true := PerPort.anyTrue_set_false_iff.2 ⟨x, hne, howed⟩
  simp [Record.afterTake, hcause, hany]

theorem Record.afterTake_of_not_owed {r : Record} {p : Port} (h : ¬r.OwedBeside p) :
    r.afterTake p = none := by
  cases hcause : r.cause with
  | lineDamage c =>
    have hany : ¬(r.owed.set p false).anyTrue = true := fun hany =>
      have ⟨x, hne, howed⟩ := PerPort.anyTrue_set_false_iff.1 hany
      h ⟨c, x, hcause, hne, howed⟩
    simp [Record.afterTake, hcause, hany]
  | laneDamage | access | panelLoss | degradation | planNotice | warning | recovery =>
    simp [Record.afterTake, hcause]

/-- What a take leaves of a record is not deliverable to the port that took it. -/
theorem Cnd.countP_afterTake (c : Cnd) (p : Port) (r : Record) :
    (r.afterTake p).toList.countP (c.deliverable p) = 0 := by
  by_cases h : r.OwedBeside p
  · have ⟨_, _, hcause, _⟩ := h
    rw [Record.afterTake_of_owed h]
    simp [Cnd.deliverable, hcause]
  · rw [Record.afterTake_of_not_owed h]
    rfl

/-- A take acts on the first record that is selected, and leaves those before and behind it. -/
theorem takeFirst_append {p : Port} {sel : Record → Bool} {pre post : List Record} {r : Record}
    (hr : sel r = true) (hpre : ∀ x ∈ pre, sel x = false) :
    takeFirst p sel (pre ++ r :: post) = pre ++ (r.afterTake p).toList ++ post := by
  induction pre with
  | nil =>
    cases h : r.afterTake p <;> simp [takeFirst, hr, h]
  | cons x xs ih =>
    rw [List.forall_mem_cons] at hpre
    simp [takeFirst, hpre.1, ih hpre.2]

/-! ### The record that a port is given -/

theorem foldl_max_le_iff {α : Type} {f : α → Nat} {xs : List α} {n m : Nat} :
    xs.foldl (fun n x => max n (f x)) n ≤ m ↔ n ≤ m ∧ ∀ x ∈ xs, f x ≤ m := by
  induction xs generalizing n with
  | nil => simp
  | cons x xs ih => simp [ih, and_assoc]

/-- The top rank is the least bound on the take ranks of the deliverable records (R171). -/
theorem Cnd.topRank_le_iff {c : Cnd} {p : Port} {m : Nat} :
    c.topRank p ≤ m ↔ ∀ x ∈ c.queue, c.deliverable p x = true → x.cause.takeRank ≤ m := by
  simp [Cnd.topRank, foldl_max_le_iff]

theorem Cnd.selected_eq_none {c : Cnd} {p : Port} (h : ∀ x ∈ c.queue, c.deliverable p x = false) :
    c.selected p = none := by
  refine List.find?_eq_none.2 fun x hx => ?_
  simp [Cnd.selects, h x hx]

section Selected

variable {c : Cnd} {p : Port} {pre post : List Record} {r : Record}
  (hqueue : c.queue = pre ++ r :: post) (hr : c.deliverable p r = true)
  (hpre : ∀ x ∈ pre, c.deliverable p x = true → x.cause.takeRank < r.cause.takeRank)
  (hpost : ∀ x ∈ post, c.deliverable p x = true → x.cause.takeRank ≤ r.cause.takeRank)
include hqueue hr hpre hpost

theorem Cnd.topRank_eq : c.topRank p = r.cause.takeRank := by
  have hmem : r ∈ c.queue := by simp [hqueue]
  refine le_antisymm (Cnd.topRank_le_iff.2 fun x hx hdeliverable => ?_)
    (Cnd.topRank_le_iff.1 le_rfl r hmem hr)
  rw [hqueue, List.mem_append, List.mem_cons] at hx
  rcases hx with hx | rfl | hx
  · exact (hpre x hx hdeliverable).le
  · exact le_rfl
  · exact hpost x hx hdeliverable

theorem Cnd.selects_self : c.selects p r = true := by
  simp [Cnd.selects, hr, Cnd.topRank_eq hqueue hr hpre hpost]

theorem Cnd.selects_before {x : Record} (hx : x ∈ pre) : c.selects p x = false := by
  rw [Cnd.selects, Cnd.topRank_eq hqueue hr hpre hpost, Bool.and_eq_false_imp]
  intro hdeliverable
  simpa using (hpre x hx hdeliverable).ne

theorem Cnd.selected_eq : c.selected p = some r := by
  have hself := Cnd.selects_self hqueue hr hpre hpost
  refine List.find?_eq_some_iff_append.2 ⟨hself, pre, post, hqueue, fun x hx => ?_⟩
  simp [Cnd.selects_before hqueue hr hpre hpost hx]

theorem Cnd.take_queue : (c.take p).queue = pre ++ (r.afterTake p).toList ++ post := by
  rw [Cnd.take, hqueue]
  exact takeFirst_append (Cnd.selects_self hqueue hr hpre hpost)
    fun x hx => Cnd.selects_before hqueue hr hpre hpost hx

/-- The remaining number counts the other deliverable records. -/
theorem Cnd.deliverableCount_take :
    (c.take p).deliverableCount p = (pre ++ post).countP (c.deliverable p) := by
  have hsame : (c.take p).deliverable = c.deliverable := rfl
  rw [Cnd.deliverableCount, ← List.countP_eq_length_filter, Cnd.take_queue hqueue hr hpre hpost, hsame]
  simp [Cnd.countP_afterTake]

end Selected

/-! ### The rules -/

theorem withoutBody_of_ne_nil {body : List Byte} {v : Verdict} (h : body ≠ []) :
    withoutBody body v = .refuse .badArgument := by
  simp [withoutBody, h]

theorem exec_conditionTake (p : Port) (b : List Byte) (s : State) :
    exec (.conditionTake p b) s = takeRequest p .conditionTake b (conditionTakeRule p b) s := by rfl

theorem exec_conditionPeek (p : Port) (b : List Byte) (s : State) :
    exec (.conditionPeek p b) s = takeRequest p .conditionPeek b (conditionPeekRule p b) s := by rfl

section Verdicts

variable {p : Port} {s : State}

theorem conditionTakeRule_accepted {r : Record} (h : s.cnd.selected p = some r) :
    conditionTakeRule p [] s = .accepted fun u =>
      (u.setCnd (u.cnd.take p), recordBytes ((u.cnd.take p).deliverableCount p) r) := by
  rw [conditionTakeRule, h]
  rfl

theorem conditionTakeRule_empty (h : s.cnd.selected p = none) :
    conditionTakeRule p [] s = .refused .empty [0] id := by
  rw [conditionTakeRule, h]
  rfl

theorem conditionPeekRule_tell {r : Record} (h : s.cnd.selected p = some r) :
    conditionPeekRule p [] s = .tell (recordBytes ((s.cnd.take p).deliverableCount p) r) := by
  rw [conditionPeekRule, h]
  rfl

theorem conditionPeekRule_empty (h : s.cnd.selected p = none) :
    conditionPeekRule p [] s = .refused .empty [0] id := by
  rw [conditionPeekRule, h]
  rfl

end Verdicts

/-- An accepted request outside the history has effects inside the frame `ps`; whatever holds of the state that
sends the reply follows. -/
theorem leads_answered {i : Instr} {p : Port} {r : Request} {b reply : List Byte} {rule : State → Verdict}
    {s v : State} {f : State → State × List Byte} {ps : List Part} {P : State → Prop}
    (hexec : exec i s = takeRequest p r b rule s) (h : s.receiving p = true) (ha : r.allowed p = true)
    (hjoins : r.joinsHistory = false) (hv : rule (s.markPresent p) = .accepted f)
    (heffect : f (s.markPresent p) = (v, reply)) (hframe : (s.markPresent p).SameBut ps v)
    (hps : Part.framers ∉ ps ∧ Part.present ∉ ps) (hP : P (v.sendReply p b ⟨.accepted, reply⟩)) :
    Leads i s fun t => s.AnsweredOnly p 0x00 reply ps t ∧ P t := by
  refine ⟨_, hexec.trans (takeRequest_accepted h ha hv), ?_⟩
  rw [State.recordRequest_of_not_joins _ p b hjoins, heffect]
  exact ⟨State.sendReply_answeredOnly b ⟨.accepted, reply⟩ h hframe hps, hP⟩

/-- Settles O30: the deliverable record that outranks those before it and is not outranked behind it is the one
selected; a take leaves of it what is still owed to another port. -/
theorem takeAndPeekSelectOneRecord : Obligations.TakeAndPeekSelectOneRecord := by
  intro p s hrx
  rw [Cnd.delivers_eq_deliverable]
  refine ⟨fun body hbody => ⟨?_, ?_⟩, fun pre post r hqueue hr hpre hpost => ?_, fun hnone => ?_⟩
  · exact leads_refused (exec_conditionTake p body s) hrx rfl (withoutBody_of_ne_nil hbody)
  · exact leads_refused (exec_conditionPeek p body s) hrx rfl (withoutBody_of_ne_nil hbody)
  · have hselected := Cnd.selected_eq (c := s.cndWith p) hqueue hr hpre hpost
    have htaken := Cnd.take_queue (c := s.cndWith p) hqueue hr hpre hpost
    dsimp only
    rw [conditionReply_eq, ← Cnd.deliverableCount_take (c := s.cndWith p) hqueue hr hpre hpost]
    refine ⟨leads_answered (exec_conditionTake p [] s) hrx rfl rfl
        (conditionTakeRule_accepted (s := s.markPresent p) hselected) rfl
        (setQueue_sameBut (s.markPresent p) _) (by decide) ⟨fun howed => ?_, fun howed => ?_⟩,
      leads_told (exec_conditionPeek p [] s) hrx rfl rfl
        (conditionPeekRule_tell (s := s.markPresent p) hselected)⟩
    · rw [Record.afterTake_of_owed howed, Option.toList_some, List.append_assoc] at htaken
      exact htaken
    · rw [Record.afterTake_of_not_owed howed, Option.toList_none, List.append_nil] at htaken
      exact htaken
  · have hselected := Cnd.selected_eq_none (c := s.cndWith p) hnone
    exact ⟨leads_refused (exec_conditionTake p [] s) hrx rfl
        (conditionTakeRule_empty (s := s.markPresent p) hselected),
      leads_refused (exec_conditionPeek p [] s) hrx rfl
        (conditionPeekRule_empty (s := s.markPresent p) hselected)⟩

end Sys2Proof.Machine
end

section
/-! SUPPORT. The error log at the JP port (R178, R179): its entries on the wire (Table 10-11), and LOG READ and LOG
CLEAR. -/

namespace Sys2Proof.Machine

/-! ### The log on the wire -/

theorem logHead_eq (g : ErrorLog) : logHead g = g.headBytes := rfl

theorem historyBytes_assoc (h : HistoryEntry) :
    be1 (portNumber h.port) ++ ([h.kind, h.length] ++ (h.bytes ++ be4 h.l.toNat)) = historyBytes h := by
  simp only [historyBytes, wordBytes, List.append_assoc]

/-- The log entry of a reply is the one of Table 10-11. -/
theorem logReply_eq (e : LogEntry) : logReply e = e.bytes := by
  simp only [logReply, LogEntry.bytes, historyBytes_assoc, fieldBytes_append, fieldBytes_flatMap,
    fieldBytes_cons, fieldBytes_nil, bigEndian_one, bigEndian_four, be1_laneOrNone, be4_twos, wordBytes,
    lanes, List.append_assoc, List.append_nil]

/-! ### The rules -/

theorem setLog_sameBut (s : State) (g : ErrorLog) :
    s.SameBut [.log] (s.setCnd { s.cnd with log := g }) := by
  intro x hx
  cases x <;> first | rfl | exact absurd (List.mem_singleton.2 rfl) hx

theorem exec_logRead (p : Port) (b : List Byte) (s : State) :
    exec (.logRead p b) s = takeRequest p .logRead b (logReadRule p b) s := by rfl

theorem exec_logClear (p : Port) (b : List Byte) (s : State) :
    exec (.logClear p b) s = takeRequest p .logClear b (logClearRule p b) s := by rfl

section Verdicts

variable {p : Port} {s : State}

theorem logReadRule_badArgument {body : List Byte} (h : body.length ≠ 1 ∨ 5 < (body.headD 0).toNat) :
    logReadRule p body s = .refuse .badArgument := by
  match body, h with
  | [], _ => rfl
  | _ :: _ :: _, _ => rfl
  | [b], h =>
    obtain ⟨n, hn⟩ : ∃ n, b.toNat = n + 6 := Nat.exists_eq_add_of_le' (by simpa using h : 5 < b.toNat)
    simp [logReadRule, hn, Config.logEntries]

theorem logReadRule_summary :
    logReadRule p [0] s = .tell (logHead s.cnd.log ++ fieldBytes [(1, s.cnd.log.held)]) := rfl

section Slots

variable {b : Byte} {i : Nat} (hb : b.toNat = i + 1) (hi : i < 5)
include hb hi

/-- Slots 1 to 5 stand at the positions 0 to 4 of the list (R178). -/
theorem logReadRule_held {e : LogEntry} (h : s.cnd.log.slots[i]? = some (some e)) :
    logReadRule p [b] s = .tell (logHead s.cnd.log ++ logReply e) := by
  simp [logReadRule, hb, hi, Config.logEntries, h, logHead_eq, logReply_eq]

theorem logReadRule_empty (h : ∀ e : LogEntry, s.cnd.log.slots[i]? ≠ some (some e)) :
    logReadRule p [b] s = .refused .empty (logHead s.cnd.log) id := by
  have hjoin : (s.cnd.log.slots[i]?).join = none :=
    Option.eq_none_iff_forall_ne_some.2 fun e he => h e (Option.join_eq_some_iff.1 he)
  simp [logReadRule, hb, hi, Config.logEntries, hjoin, logHead_eq]

end Slots

end Verdicts

/-- Settles O32: the branches of the two rules; an emptied log is the log after reset. -/
theorem logIsReadAndCleared : Obligations.LogIsReadAndCleared := by
  intro s hrx
  refine ⟨fun body hbad => ?_, ?_, fun b i hb hi => ⟨fun e h => ?_, fun h => ?_⟩, fun body hbody => ?_, ?_⟩
  · exact leads_refused (exec_logRead .jp body s) hrx rfl (logReadRule_badArgument hbad)
  · rintro n rfl
    exact leads_told (exec_logRead .jp [0] s) hrx rfl rfl (logReadRule_summary (s := s.markPresent .jp))
  · exact leads_told (exec_logRead .jp [b] s) hrx rfl rfl
      (logReadRule_held (s := s.markPresent .jp) hb hi h)
  · exact leads_refused (exec_logRead .jp [b] s) hrx rfl
      (logReadRule_empty (s := s.markPresent .jp) hb hi h)
  · exact leads_refused (exec_logClear .jp body s) hrx rfl (withoutBody_of_ne_nil hbody)
  · exact leads_performed (exec_logClear .jp [] s) hrx rfl rfl rfl rfl (setLog_sameBut _ _) (by decide) rfl

end Sys2Proof.Machine
end

section
/-! SUPPORT. What the requests of the port interfaces share: a refusal that makes a report, the group that a body of
one byte names, the holder of a lock, and the parts that a lock or a notice changes. -/

namespace Sys2Proof.Machine

/-- A refused request whose report stays inside the frame `ps` replies; whatever holds of the state that sends the
reply follows (step 4 of R182). -/
theorem leads_reported {i : Instr} {p : Port} {r : Request} {b : List Byte} {rule : State → Verdict}
    {s : State} {c : ReplyCode} {body : List Byte} {f : State → State} {ps : List Part} {P : State → Prop}
    (hexec : exec i s = takeRequest p r b rule s) (h : s.receiving p = true) (ha : r.allowed p = true)
    (hv : rule (s.markPresent p) = .refused c body f)
    (hframe : (s.markPresent p).SameBut ps (f (s.markPresent p)))
    (hps : Part.framers ∉ ps ∧ Part.present ∉ ps)
    (hP : P ((f (s.markPresent p)).sendReply p b ⟨c, body⟩)) :
    Leads i s fun t => s.AnsweredOnly p c.code body ps t ∧ P t :=
  ⟨_, hexec.trans (takeRequest_refused h ha hv),
    State.sendReply_answeredOnly b ⟨c, body⟩ h hframe hps, hP⟩

/-! ### A body of one byte that names a group -/

@[simp] theorem groupOf_groupNumber (g : Group) : groupOf (groupNumber g) = some g := by cases g <;> rfl

theorem bodyGroup_of_groupNumber {b : Byte} {g : Group} (h : b.toNat = groupNumber g) :
    bodyGroup [b] = some g := by
  rw [bodyGroup, h, groupOf_groupNumber]

/-- A body of another length, or with a byte above 4, names no group. -/
theorem bodyGroup_eq_none {body : List Byte} (h : body.length ≠ 1 ∨ 4 < (body.headD 0).toNat) :
    bodyGroup body = none := by
  match body, h with
  | [], _ => rfl
  | [b], h =>
    have hb : 4 < b.toNat := by simpa using h
    rw [bodyGroup]
    match b.toNat, hb with
    | n + 5, _ => rfl
  | _ :: _ :: _, _ => rfl

/-! ### The holder of a lock -/

theorem Locks.heldAgainst_eq_some {t : Locks} {g : Group} {h p : Port} (hheld : t.get g = some h)
    (hne : h ≠ p) : t.heldAgainst g p = some h := by
  simp [Locks.heldAgainst, hheld, hne]

theorem Locks.heldAgainst_eq_none {t : Locks} {g : Group} {p : Port}
    (h : t.get g = none ∨ t.get g = some p) : t.heldAgainst g p = none := by
  obtain h | h := h <;> simp [Locks.heldAgainst, h]

/-! ### Frames of a lock and of a notice -/

theorem setLock_sameBut (s : State) (g : Group) (h : Option Port) :
    s.SameBut [.locks] (s.setLock g h) := by
  intro x hx
  cases x <;> first | rfl | exact absurd (List.mem_singleton.2 rfl) hx

theorem reportAccess_sameBut (s : State) (c : AccessCause) (bound : Port) (detail : Int) :
    s.SameBut [.queue] (s.reportAccess c bound detail) :=
  setQueue_sameBut s _

end Sys2Proof.Machine
end

section
/-! SUPPORT. IDENTIFY (R184), UNLOCK (R191) and LOCK BREAK (R192): the verdict of each and the statements about
them. -/

namespace Sys2Proof.Machine

theorem exec_identify (p : Port) (b : List Byte) (s : State) :
    exec (.identify p b) s = takeRequest p .identify b (identifyRule p b) s := by rfl

theorem exec_unlock (p : Port) (b : List Byte) (s : State) :
    exec (.unlock p b) s = takeRequest p .unlock b (unlockRule p b) s := by rfl

theorem exec_lockBreak (p : Port) (b : List Byte) (s : State) :
    exec (.lockBreak p b) s = takeRequest p .lockBreak b (lockBreakRule p b) s := by rfl

/-! ### IDENTIFY -/

/-- Settles O20: IDENTIFY only tells, and for each port it tells the bytes of R184. -/
theorem identifyTellsThePart : Obligations.IdentifyTellsThePart := by
  intro p s hrx
  cases p <;> exact leads_told (exec_identify _ [] s) hrx rfl rfl rfl

/-! ### UNLOCK and LOCK BREAK -/

section NoGroup

variable {p : Port} {body : List Byte} {s : State} (h : bodyGroup body = none)
include h

theorem unlockRule_badArgument : unlockRule p body s = .refuse .badArgument := by
  rw [unlockRule, h]

theorem lockBreakRule_badArgument : lockBreakRule p body s = .refuse .badArgument := by
  rw [lockBreakRule, h]

end NoGroup

section Verdicts

variable {p : Port} {b : Byte} {g : Group} {s : State} (hg : b.toNat = groupNumber g)
include hg

theorem unlockRule_perform (h : s.pif.locks.get g = some p) :
    unlockRule p [b] s = .perform fun u => u.setLock g none := by
  simp only [unlockRule, bodyGroup_of_groupNumber hg, h, if_true]

theorem unlockRule_wrongState (h : s.pif.locks.get g ≠ some p) :
    unlockRule p [b] s = .refuse .wrongState := by
  simp only [unlockRule, bodyGroup_of_groupNumber hg, h, if_false]

theorem lockBreakRule_perform {h : Port} (hheld : s.pif.locks.get g = some h) :
    lockBreakRule p [b] s = .perform fun u =>
      (u.setLock g none).reportAccess .lockBroken h (accessDetail g p) := by
  simp only [lockBreakRule, bodyGroup_of_groupNumber hg, hheld]

theorem lockBreakRule_wrongState (h : s.pif.locks.get g = none) :
    lockBreakRule p [b] s = .refuse .wrongState := by
  simp only [lockBreakRule, bodyGroup_of_groupNumber hg, h]

end Verdicts

/-- Settles O27: one verdict per clause; the notice of LOCK BREAK carries 2, the number of JP. -/
theorem unlockAndBreakFreeAGroup : Obligations.UnlockAndBreakFreeAGroup := by
  refine ⟨fun p s hrx => ⟨fun body hbad => ?_, fun b g hg => ⟨fun hheld => ?_, fun hother => ?_⟩⟩,
    fun s hrx => ⟨fun body hbad => ?_, fun b g hg => ⟨fun h hheld => ?_, fun hfree => ?_⟩⟩⟩
  · exact leads_refused (exec_unlock p body s) hrx rfl (unlockRule_badArgument (bodyGroup_eq_none hbad))
  · exact leads_performed (exec_unlock p [b] s) hrx rfl rfl
      (unlockRule_perform (s := s.markPresent p) hg hheld) rfl (setLock_sameBut _ g none) (by decide) rfl
  · exact leads_refused (exec_unlock p [b] s) hrx rfl
      (unlockRule_wrongState (s := s.markPresent p) hg hother)
  · exact leads_refused (exec_lockBreak .jp body s) hrx rfl
      (lockBreakRule_badArgument (bodyGroup_eq_none hbad))
  · exact leads_performed (exec_lockBreak .jp [b] s) hrx rfl rfl
      (lockBreakRule_perform (s := s.markPresent .jp) hg hheld) rfl
      ((setLock_sameBut _ g none).trans (reportAccess_sameBut _ .lockBroken h _)) (by decide) ⟨rfl, rfl⟩
  · exact leads_refused (exec_lockBreak .jp [b] s) hrx rfl
      (lockBreakRule_wrongState (s := s.markPresent .jp) hg hfree)

end Sys2Proof.Machine
end

section
/-! SUPPORT. The parameter store: values against ranges, what a write puts into the store and what it leaves, and
the blocks that act on an accepted write (R188, R189). -/

namespace Sys2Proof.Machine

/-! ### Ranges -/

/-- A value in range lies between the ends of Table 10-4, and so is not negative. -/
theorem Params.bounds_of_inRange {ps : Params} {q : Param} {v : Int} (h : ps.inRange q v = true) :
    0 ≤ v ∧ v ≤ (ps.range q).2 := by
  simp only [Params.inRange, Bool.and_eq_true, decide_eq_true_eq] at h
  obtain ⟨⟨hlow, hhigh⟩, -⟩ := h
  exact ⟨(Int.natCast_nonneg _).trans hlow, hhigh⟩

theorem Params.inRange_deviationLimit (ps : Params) (v : Int) : ps.inRange .deviationLimit v =
    decide ((ps.value .cutTolerance : Int) ≤ v ∧ v ≤ 500) :=
  (Bool.and_true _).trans (Bool.decide_and _ _).symm

theorem Params.inRange_cutTolerance (ps : Params) (v : Int) :
    ps.inRange .cutTolerance v = decide (5 ≤ v ∧ v ≤ 200) :=
  (Bool.and_true _).trans (Bool.decide_and _ _).symm

/-! ### A write -/

/-- The lane-present flags hold every number of four bits. -/
theorem presentMask_presentOf {n : Nat} (h : n ≤ 15) : presentMask (presentOf n) = n := by
  interval_cases n <;> rfl

theorem flagNat_beq_one {n : Nat} (h : n ≤ 1) : flagNat (n == 1) = n := by
  interval_cases n <;> rfl

/-- A value up to the end of its range is held as it is written. -/
theorem Params.value_write {ps : Params} {q : Param} {n : Nat} (h : n ≤ (ps.range q).2) :
    (ps.write q n).value q = n := by
  cases q with
  | sensorDistance k | knifeDistance k | actuationTime k | lifeThreshold k | timeThreshold k =>
    exact PerLane.get_set_same ..
  | lifeFlag k | timeFlag k => exact (congrArg flagNat (PerLane.get_set_same ..)).trans (flagNat_beq_one h)
  | lanePresent => exact presentMask_presentOf h
  | outputFormat => exact flagNat_beq_one h
  | _ => rfl

/-- A write leaves every other parameter: those of another field are untouched, and of one field with a value per
lane only the named lane's changes. -/
theorem Params.value_write_of_ne (ps : Params) {q x : Param} (n : Nat) (h : x ≠ q) :
    (ps.write q n).value x = ps.value x := by
  cases q with
  | sensorDistance k | knifeDistance k | actuationTime k | lifeThreshold k | timeThreshold k =>
    cases x <;> first | rfl | exact PerLane.get_set_ne _ _ fun e => h (congrArg _ e)
  | lifeFlag k | timeFlag k =>
    cases x <;> first
      | rfl
      | exact congrArg flagNat (PerLane.get_set_ne _ _ fun e => h (congrArg _ e))
  | _ => cases x <;> first | rfl | exact absurd rfl h

/-- A value in range is the one that the store holds after its write. -/
theorem Params.value_write_of_inRange {ps : Params} {q : Param} {v : Int} (h : ps.inRange q v = true) :
    ((ps.write q v.toNat).value q : Int) = v := by
  obtain ⟨hlow, hhigh⟩ := Params.bounds_of_inRange h
  rw [Params.value_write (Int.toNat_le.2 hhigh), Int.toNat_of_nonneg hlow]

/-! ### The hand-on of a write -/

/-- What every cascade of block events leaves, as a frame. -/
theorem Evolves.sameBut {s t : State} (h : Evolves s t) :
    s.SameBut [.map, .reg, .csc, .knc, .ten, .lnc, .queue, .log] t := by
  intro x hx
  cases x with
  | mot => exact h.mot
  | lpm => exact h.lpm
  | pls => exact h.pls
  | masks => exact h.masks
  | present => exact h.present
  | history => exact h.history
  | pending => exact h.pending
  | params => exact congrArg Pif.params h.pif
  | locks => exact congrArg Pif.locks h.pif
  | framers => exact congrArg Pif.framers h.pif
  | map | reg | csc | knc | ten | lnc | queue | log => exact absurd (by decide) hx

section Write

variable (s : State) (q : Param) (v : Nat)

/-- The state with the new value in the store and the configuration-valid flag evaluated (R149, R188). -/
def State.stored : State := (s.setPif { s.pif with params := s.pif.params.write q v }).evalConfig

theorem stored_sameBut : s.SameBut [.params, .lnc] (s.stored q v) := by
  intro x hx
  cases x <;> first | rfl | exact absurd (by decide) hx

/-- From the store with the new value on, a write is handed on by block events, and to LPM at the end (R189). -/
theorem State.writeParam_evolves : ∃ u, Evolves (s.stored q v) u ∧
    (s.writeParam q v = u ∨ s.writeParam q v = u.checkPool) := by
  have hduty : ∀ u : State, Evolves u (if q.group = .g2 then u.refreshDuty else u) := by
    intro u
    split
    · exact (State.refreshDuty_cascade u : Cascade .all _ _).evolves
    · exact .refl u
  have htension : ∀ u : State,
      Evolves u (if q.isBase && u.lnc.line.running then u.tensionChange else u) := by
    intro u
    split
    · exact (State.tensionChange_cascade u rfl rfl : Cascade .all _ _).evolves
    · exact .refl u
  refine ⟨_, (hduty (s.stored q v)).trans (htension _), ?_⟩
  unfold State.writeParam State.stored
  dsimp only
  split
  · exact .inr rfl
  · exact .inl rfl

theorem State.writeParam_params : (s.writeParam q v).params = s.params.write q v := by
  obtain ⟨u, hu, h | h⟩ := s.writeParam_evolves q v <;> rw [h]
  exacts [congrArg Pif.params hu.pif, congrArg Pif.params hu.pif]

theorem State.writeParam_configValid :
    (s.writeParam q v).lnc.configValid = (s.params.write q v).firstFailure.isNone := by
  obtain ⟨u, hu, h | h⟩ := s.writeParam_evolves q v <;> rw [h]
  exacts [hu.config, hu.config]

/-- The parts that an accepted write can reach. -/
theorem writeParam_sameBut : s.SameBut
    [.params, .lnc, .map, .reg, .csc, .knc, .ten, .queue, .log, .lpm] (s.writeParam q v) := by
  obtain ⟨u, hu, h⟩ := s.writeParam_evolves q v
  have hevents := (stored_sameBut s q v).trans hu.sameBut
  obtain h | h := h <;> rw [h]
  · exact hevents.mono (by decide)
  · exact (hevents.trans (setLpm_sameBut u _)).mono (by decide)

end Write

end Sys2Proof.Machine
end

section
/-! SUPPORT. PARAM READ (R187) and PARAM WRITE (R188): the verdicts in the order of the rule, and the statement
about them. -/

namespace Sys2Proof.Machine

theorem exec_paramRead (p : Port) (b : List Byte) (s : State) :
    exec (.paramRead p b) s = takeRequest p .paramRead b (paramReadRule p b) s := by rfl

theorem exec_paramWrite (p : Port) (b : List Byte) (s : State) :
    exec (.paramWrite p b) s = takeRequest p .paramWrite b (paramWriteRule p b) s := by rfl

/-! ### The bodies -/

/-- The body of a PARAM WRITE, which an accepted one returns: group, item, index and value (Table 10-1). -/
def writeBody (g i n : Byte) (v : Word) : List Byte := [g, i, n] ++ bigEndian 4 v.toNat

theorem length_writeBody (g i n : Byte) (v : Word) : (writeBody g i n v).length = 7 := by
  simp [writeBody]

theorem bodyParam_cons (g i n : Byte) (rest : List Byte) :
    bodyParam (g :: i :: n :: rest) = paramOf g.toNat i.toNat n.toNat := by
  simp [bodyParam, field, beNat]

theorem bodyParam_writeBody (g i n : Byte) (v : Word) :
    bodyParam (writeBody g i n v) = paramOf g.toNat i.toNat n.toNat := bodyParam_cons ..

theorem field32_writeBody (g i n : Byte) (v : Word) : field32 (writeBody g i n v) 3 = v := by
  rw [field32, ← List.append_nil (writeBody g i n v), writeBody, field_bigEndian (i := 3) rfl v.isLt,
    BitVec.ofNat_toNat, BitVec.setWidth_eq]

theorem take_writeBody_append (g i n : Byte) (v : Word) :
    (writeBody g i n v).take 3 ++ intBytes4 v.toInt = writeBody g i n v := by
  rw [intBytes4, BitVec.ofInt_toInt, ← bigEndian_four]
  rfl

/-! ### The rules -/

section Form

variable {p : Port} {s : State}

theorem paramReadRule_badLength {body : List Byte} (h : body.length ≠ 3) :
    paramReadRule p body s = .refuse .badArgument := if_neg h

theorem paramWriteRule_badLength {body : List Byte} (h : body.length ≠ 7) :
    paramWriteRule p body s = .refuse .badArgument := if_neg h

variable {g i n : Byte} (v : Word)

theorem paramReadRule_unnamed (h : paramOf g.toNat i.toNat n.toNat = none) :
    paramReadRule p [g, i, n] s = .refuse .badArgument := by
  simp only [paramReadRule, bodyParam_cons, h, ite_self]

theorem paramWriteRule_unnamed (h : paramOf g.toNat i.toNat n.toNat = none) :
    paramWriteRule p (writeBody g i n v) s = .refuse .badArgument := by
  simp only [paramWriteRule, bodyParam_writeBody, h, ite_self]

end Form

section Verdicts

variable {p : Port} {s : State} {g i n : Byte} {q : Param} (hq : paramOf g.toNat i.toNat n.toNat = some q)
include hq

theorem paramReadRule_tell : paramReadRule p [g, i, n] s =
    .tell ([g, i, n] ++ bigEndian 4 (s.params.value q)) := by
  simp only [paramReadRule, List.length_cons, List.length_nil, bodyParam_cons, hq, bigEndian_four, if_true]

variable {v : Word}

theorem paramWriteRule_locked {h : Port} (hheld : s.pif.locks.heldAgainst q.group p = some h) :
    paramWriteRule p (writeBody g i n v) s =
      .refused .locked [] fun u => u.reportAccess .writeRefused h (accessDetail q.group p) := by
  simp only [paramWriteRule, length_writeBody, bodyParam_writeBody, hq, hheld, if_true]

variable (hfree : s.pif.locks.heldAgainst q.group p = none)
include hfree

theorem paramWriteRule_wrongState (hline : q.group = .g0 ∧ s.lnc.line ≠ .offline) :
    paramWriteRule p (writeBody g i n v) s = .wrong (lineStateBody s.lnc.line) := by
  simp only [paramWriteRule, length_writeBody, bodyParam_writeBody, hq, hfree, if_true, if_pos hline]

variable (hline : ¬(q.group = .g0 ∧ s.lnc.line ≠ .offline))
include hline

theorem paramWriteRule_outOfRange (h : s.params.inRange q v.toInt = false) :
    paramWriteRule p (writeBody g i n v) s = .refuse .badArgument := by
  simp only [paramWriteRule, length_writeBody, bodyParam_writeBody, field32_writeBody, hq, hfree, h, if_true,
    if_neg hline, Bool.false_eq_true, if_false]

theorem paramWriteRule_accepted (h : s.params.inRange q v.toInt = true) :
    paramWriteRule p (writeBody g i n v) s =
      .accepted fun u => (u.writeParam q v.toInt.toNat, writeBody g i n v) := by
  simp only [paramWriteRule, length_writeBody, bodyParam_writeBody, field32_writeBody, hq, hfree, h, if_true,
    if_neg hline, take_writeBody_append]

end Verdicts

/-- Settles O24: the verdicts in the order of R188; an accepted write reaches other parts of the state only by block
events, which leave the store. -/
theorem parametersAreReadAndWritten : Obligations.ParametersAreReadAndWritten := by
  intro p g i n v s hrx
  have hread := exec_paramRead p [g, i, n] s
  have hwrite := exec_paramWrite p (writeBody g i n v) s
  refine ⟨fun body h => leads_refused (exec_paramRead p body s) hrx rfl (paramReadRule_badLength h),
    fun body h => leads_refused (exec_paramWrite p body s) hrx rfl (paramWriteRule_badLength h),
    fun hq => ⟨leads_refused hread hrx rfl (paramReadRule_unnamed hq),
      leads_refused hwrite hrx rfl (paramWriteRule_unnamed v hq)⟩,
    fun q hq => ⟨leads_told hread hrx rfl rfl (paramReadRule_tell (s := s.markPresent p) hq),
      fun h hheld hne => ?_, fun hlock => ?_⟩⟩
  · exact leads_reported hwrite hrx rfl
      (paramWriteRule_locked (s := s.markPresent p) hq (Locks.heldAgainst_eq_some hheld hne))
      (reportAccess_sameBut _ .writeRefused h _) (by decide) rfl
  have hfree : (s.markPresent p).pif.locks.heldAgainst q.group p = none := Locks.heldAgainst_eq_none hlock
  refine ⟨fun hg hline => ?_, fun hline hrange => ?_, fun hline hrange => ?_,
    fun hlimit => hlimit ▸ Params.inRange_deviationLimit s.params v.toInt,
    fun htolerance => htolerance ▸ Params.inRange_cutTolerance s.params v.toInt⟩
  · exact leads_refused hwrite hrx rfl (paramWriteRule_wrongState hq hfree ⟨hg, hline⟩)
  · exact leads_refused hwrite hrx rfl (paramWriteRule_outOfRange hq hfree hline hrange)
  · let joined := (s.markPresent p).recordRequest p .paramWrite (writeBody g i n v)
    have hstore : (joined.writeParam q v.toInt.toNat).params = s.params.write q v.toInt.toNat :=
      joined.writeParam_params q _
    obtain ⟨t, ht, ⟨hanswered, hjoined, -⟩, hparams, hconfig⟩ := leads_performed
      (P := fun t => t.params = s.params.write q v.toInt.toNat ∧
        t.lnc.configValid = t.params.firstFailure.isNone) hwrite hrx rfl rfl
      (paramWriteRule_accepted (s := s.markPresent p) hq hfree hline hrange) rfl
      (writeParam_sameBut joined q _) (by decide)
      ⟨hstore, (joined.writeParam_configValid q _).trans
        (congrArg (fun ps : Params => ps.firstFailure.isNone) hstore.symm)⟩
    refine ⟨t, ht, hanswered, hjoined, ?_, fun x hx => ?_, hconfig⟩
    · rw [hparams]
      exact Params.value_write_of_inRange hrange
    · rw [hparams]
      exact Params.value_write_of_ne s.params _ hx

end Sys2Proof.Machine
end
